-- ==== Sys2Proof/Word.lean ====
section
/-! DEFINITION. The value types of the block: bytes, 16-bit frame fields, 32-bit request words (R8).
All field values are unsigned; lengths, offsets and counts are `Nat` and never wrap (R9). -/

namespace Sys2Proof

/-- One byte, `u8` (R8). -/
abbrev Byte := BitVec 8

/-- One 16-bit field of a frame, `u16` (R8). -/
abbrev Half := BitVec 16

/-- One request word (R66). -/
abbrev Word := BitVec 32

end Sys2Proof
end

