-- ==== Sys2Proof/Config.lean ====
section
/-! DEFINITION. The implementation parameters of R6 with their bounds (R7), the two parameters the spec
fixes, and the free values: values the spec leaves open, constants with no body. -/

namespace Sys2Proof

/-- `DMA_REMAINING_IDLE` (R6): what GET_REMAINING reports while no transfer is in progress. -/
inductive RemainingIdle where
  | zero
  | full
  | any
deriving DecidableEq, Repr

/-- `STALE_COMPLETION` (R6): whether the completion of a transfer re-armed or cancelled in DONE_PENDING
may still raise the flag. -/
inductive StaleCompletion where
  | discarded
  | mayFire
deriving DecidableEq, Repr

/-- `HS_TIMEOUT` (R6): whether the blocking wait can end without a reply. -/
inductive HsTimeout where
  | none
  | nondet
deriving DecidableEq, Repr

/-- The parameters of R6 that the source leaves open. -/
structure Params where
  /-- `F`, FRAME_SIZE. -/
  frameSize : Nat
  /-- `T`, AUTH_TAG_SIZE. -/
  authTagSize : Nat
  /-- `DMA_REMAINING_IDLE`. -/
  remainingIdle : RemainingIdle
  /-- `STALE_COMPLETION`. -/
  staleCompletion : StaleCompletion
  /-- `OVERLEN_REARM`. -/
  overlenRearm : Bool
  /-- `HS_TIMEOUT`. -/
  hsTimeout : HsTimeout
  /-- `TYPE_USB_HID`. -/
  typeUsbHid : Half
  /-- `TYPE_RADIO_HID`. -/
  typeRadioHid : Half
  /-- `TYPE_PLAT_DETAILS`. -/
  typePlatDetails : Half
deriving DecidableEq, Repr

/-- `N = F - 8`, PAYLOAD_CAP (R6). -/
def Params.payloadCap (p : Params) : Nat := p.frameSize - 8

/-- `M = N - 4`, CMD_CAP (R6). -/
def Params.cmdCap (p : Params) : Nat := p.payloadCap - 4

/-- The bounds of R7; a model given parameters outside them refuses them. -/
def Params.ok (p : Params) : Bool :=
  decide (12 + p.authTagSize ≤ p.frameSize) && decide (p.frameSize ≤ 65535) &&
    (p.typeUsbHid != p.typeRadioHid) && (p.typeUsbHid != p.typePlatDetails) &&
    (p.typeRadioHid != p.typePlatDetails)

/-- `AUTH_BIT`, fixed at 15 (R6, R65). -/
def Config.authBit : Nat := 15

/-- `REPLY_VALID`, fixed at 0x0001 (R6, R90). -/
def Config.replyValid : Half := 1

/-- DESIGN CHOICE (log 1): the parameters of `State.reset`. The sizes and type values are the spec's test
configuration (95_test_vectors.md section 0), since R6 gives them no value; every parameter with a
default in R6 has it. -/
def Config.defaultParams : Params where
  frameSize := 32
  authTagSize := 4
  remainingIdle := .any
  staleCompletion := .mayFire
  overlenRearm := false
  hsTimeout := .none
  typeUsbHid := 0x0000
  typeRadioHid := 0x0001
  typePlatDetails := 0x0003

/-- Free value (log 2): the reset contents of `STAGE`, one draw per byte (R21). -/
opaque Config.stageDraw : Nat → Byte

/-- Free value (log 2): the reset contents of `TXBUF`, one draw per byte (R20). -/
opaque Config.txbufDraw : Nat → Byte

/-- Free value (log 3): the draw GET_REMAINING takes under `DMA_REMAINING_IDLE = ANY`, one per call (R96);
the driver reports it reduced into `0..F`. -/
opaque Config.remainingDraw : Nat → Half

end Sys2Proof
end

