-- ==== Sys2Proof/Syntax.lean ====
section
/-! DEFINITION. The requests the host issues to the block and the primitive calls the block makes to
the DMA driver: one constructor per row of the opcode table (R67, R74). -/

namespace Sys2Proof

/-- The Restriction Mode of a POLL (R68). Code 3 is illegal and has no constructor. -/
inductive RMode where
  | unrestricted
  | onlyPingAndCancel
  | allButAdministrativeBundle
deriving DecidableEq, Repr

/-- The two-bit code of a Restriction Mode (R68). -/
def RMode.code : RMode → BitVec 2
  | .unrestricted => 0
  | .onlyPingAndCancel => 1
  | .allButAdministrativeBundle => 2

/-- The instructions: seven host requests (R67) and five driver primitives (R74). -/
inductive Instr where
  /-- `BEGIN_RECEIVE` (R109). -/
  | beginReceive
  /-- `POLL` with its Restriction Mode (R111). -/
  | poll (rmode : RMode)
  /-- `SEND`; its frame operand is `STAGE` (R125). -/
  | send
  /-- `ARM_AND_CLEAR_PENDING` (R130). -/
  | armAndClearPending
  /-- `WAIT_RX_AND_CLEAR` with the expected `message_type` (R69, R132). -/
  | waitRxAndClear (expected : Half)
  /-- `DMA_CANCEL` (R136). -/
  | dmaCancel
  /-- `DISPATCH_RETURN` with the `REPLY` bit and `ARG16` (R70, R119). -/
  | dispatchReturn (reply : Bool) (lr : Half)
  /-- Driver primitive `ARM_RX`, `arm_receive(RXBUF, F)` (R94). -/
  | armRx
  /-- Driver primitive `ARM_TX`, `arm_transmit(TXBUF, F)` (R95). -/
  | armTx
  /-- Driver primitive `GET_REMAINING`, `remaining_bytes_for_reception()` (R96). -/
  | getRemaining
  /-- Driver primitive `CHK_CLR_DONE`, `check_and_clear_completion_flag()` (R97). -/
  | chkClrDone
  /-- Driver primitive `CANCEL`, `cancel()` (R98). -/
  | cancel
deriving DecidableEq, Repr

end Sys2Proof
end

