-- ==== Sys2Proof/Machine/State.lean ====
section
/-! DEFINITION. The state of the block and of the DMA channels it drives, as plain data (R40), the
reasons a step can stop, and the state after reset (R159). -/

namespace Sys2Proof.Machine

/-- One byte-addressed space as (offset, byte) cells: offsets strictly rising, one cell for each byte
written since reset. An unlisted offset has not been written since reset (log 4). -/
abbrev Memory := List Host.Cell

/-- The three address spaces (R41). -/
inductive Buffer where
  | rxbuf
  | txbuf
  | stage
deriving DecidableEq, Repr

/-- `rx_state` (R22). -/
inductive RxState where
  | idle
  | active
  | donePending
  | done
deriving DecidableEq, Repr

/-- `busy_op` (R29). -/
inductive BusyOp where
  | none
  | acpHold
  | wait (expected : Half)
deriving DecidableEq, Repr

/-- `phase` (R30). -/
inductive Phase where
  | idle
  | dispatching (dType : Half) (dLen : Nat) (dRmode : RMode) (dRearm : Bool)
deriving DecidableEq, Repr

/-- `hs_state` (R31). -/
inductive HsState where
  | idle
  | armed
  | reqSent
  | wait
deriving DecidableEq, Repr

/-- A resolved length `LEN(L)`, or `INVALID` (R33, R84). -/
inductive Resolution where
  | len (l : Nat)
  | invalid
deriving DecidableEq, Repr

/-- The requests a fault's `info` can name (R142). -/
inductive RequestName where
  | poll
  | waitRxAndClear
  | dispatchReturn
deriving DecidableEq, Repr

/-- A raised fault with its `info` (R32, R142). -/
inductive FaultRecord where
  /-- Code 1: decode met an illegal word (R143). -/
  | illegalRequest (word : Word)
  /-- Code 2: POLL while dispatching, or DISPATCH_RETURN while not (R144). -/
  | sequenceError (op : RequestName) (phase : Phase)
  /-- Code 3: POLL or WAIT_RX_AND_CLEAR before any arm since reset (R145). -/
  | notArmedSinceReset (op : RequestName)
  /-- Code 4: POLL was told of more remaining bytes than a frame has (R146). -/
  | remainingOutOfRange (rem : Nat)
  /-- Code 5: a byte arrived while reception was not ACTIVE (R147). -/
  | rxOverrun (b : Byte) (rxState : RxState)
  /-- Code 6: a read of a byte of RXBUF never written (R148). -/
  | uninitRead (off : Nat)
  /-- Code 7: a transmission while the previous frame is still leaving (R149). -/
  | txBusy (sent : Nat)
  /-- Code 8: a frame that breaks the precondition of `send` (R150). -/
  | badTxFrame (len1 len2 valid : Half)
deriving DecidableEq, Repr

/-- The events of `trace` (R33). -/
inductive Event where
  | armRx
  | armTx
  | cancelRx
  | remaining (rem : Nat)
  | chkDone (b : Bool)
  | dispatch (type : Half) (len : Nat) (rmode : RMode)
  | dropInvalid
  | dropCompleted
  | dropOverlen (len : Nat)
  | ret (reply : Bool) (lr : Nat)
  | hsMatch (type : Half) (len : Nat)
  | hsDiscard (type : Half) (r : Resolution)
  | hsTimeout
deriving DecidableEq, Repr

/-- What a completed request, driver call or host read hands back to its caller (log 13): the results of
R96, R97, R111, R132, R135 and of a host read. -/
inductive Result where
  /-- A request with no return value completed. -/
  | completed
  /-- POLL's `NO_MSG` (R111). -/
  | noMsg
  /-- POLL's `DISPATCHED` (R111). -/
  | dispatched
  /-- WAIT_RX_AND_CLEAR's `(t, L)` (R132). -/
  | matched (type : Half) (len : Nat)
  /-- WAIT_RX_AND_CLEAR's `TIMEOUT` (R135). -/
  | timeout
  /-- GET_REMAINING's `rem` (R96). -/
  | remaining (rem : Nat)
  /-- CHK_CLR_DONE's `b` (R97). -/
  | flag (b : Bool)
  /-- The byte of a host read (R42). -/
  | byte (b : Byte)
deriving DecidableEq, Repr

/-- One step of an agent other than the block and the host (R99 to R102, R135). -/
inductive EnvStep where
  /-- RX_LAND(b) (R99). -/
  | rxLand (b : Byte)
  /-- RX_COMPLETE (R100). -/
  | rxComplete
  /-- GHOST_FIRE (R101). -/
  | ghostFire
  /-- GHOST_DROP (R101). -/
  | ghostDrop
  /-- TX_BYTE (R102). -/
  | txByte
  /-- TIMEOUT (R135). -/
  | timeout
deriving DecidableEq, Repr

/-- One step taken between requests (log 5). `during` lists, event boundary by event boundary, the
environment steps that fall inside the request (R13). -/
inductive Input where
  /-- The host issues a request word (R66). -/
  | request (word : Word) (during : List (List EnvStep))
  /-- The block takes its turn in the request that is holding (R29). -/
  | resume (during : List (List EnvStep))
  /-- The host reads one byte of a space (R42). -/
  | hostRead (space : Buffer) (off : Nat)
  /-- The host writes one byte of a space (R42). -/
  | hostWrite (space : Buffer) (off : Nat) (b : Byte)
  /-- A step of a DMA channel or the companion, or TIMEOUT. -/
  | env (e : EnvStep)
deriving DecidableEq, Repr

/-- Why the machine stops for good: no agent takes a step from a faulted state (R141). -/
inductive Fault where
  /-- Raised by every step and every meaning in a state whose `fault` is already recorded (R141, R154).
  Safe: the record stands in the state before it, and the spec gives no step here. -/
  | halted (record : FaultRecord)
deriving DecidableEq, Repr

/-- A step to which the spec gives no meaning (R152). -/
inductive Refusal where
  /-- Raised by exec's arm of an instruction that has no meaning yet (none in this model). Safe. -/
  | notModelled (mnemonic : String)
  /-- Raised by every step when the parameters break R7. Safe: R152 refuses it. -/
  | parametersOutOfBounds
  /-- Raised by a request or a host access while `busy_op` is not NONE (R12, R152). Safe: R152 refuses it. -/
  | hostStepDuringHold
  /-- Raised by a host write of RXBUF or TXBUF, or a host read of TXBUF (R42, R152). Safe: R152 refuses it. -/
  | hostAccessNotGranted (space : Buffer)
  /-- Raised by a host access at an offset of `F` or more (R41, R152). Safe: R152 refuses it. -/
  | offsetOutOfRange (off : Nat)
  /-- Raised by step when the driver call laid out as the next event has a code R74 does not list. Safe:
  no run from reset lays one out (log 11). -/
  | noSuchPrimitive (code : Byte)
deriving DecidableEq, Repr

/-- The machine's state: R40's list, the link observation of R34, and the model's own fields. -/
structure State where
  /-- The parameters of R6 (model's own, log 1); no step writes them. -/
  params : Params
  /-- `RXBUF` with `rx_written`: a byte is written exactly when its offset is listed (R19). -/
  rxbuf : Memory
  /-- `TXBUF` (R20). -/
  txbuf : Memory
  /-- `STAGE` (R21). -/
  stage : Memory
  /-- `rx_state` (R22). -/
  rxState : RxState
  /-- `rx_landed` (R23). -/
  rxLanded : Nat
  /-- `done_flag` (R24). -/
  doneFlag : Bool
  /-- `rx_ghost` (R25). -/
  rxGhost : Bool
  /-- `tx_busy` (R26). -/
  txBusy : Bool
  /-- `tx_sent` (R26). -/
  txSent : Nat
  /-- `answered_fast` (R27). -/
  answeredFast : Bool
  /-- `armed_since_reset` (R28). -/
  armedSinceReset : Bool
  /-- `busy_op` (R29). -/
  busyOp : BusyOp
  /-- `phase` (R30). -/
  phase : Phase
  /-- `hs_state` (R31). -/
  hsState : HsState
  /-- `fault` (R32). -/
  fault : Option FaultRecord
  /-- `trace`, oldest event first (R33). -/
  trace : List Event
  /-- `tx_frames`, oldest frame first (R34). -/
  txFrames : List (List Byte)
  /-- `tx_partial` (R34). -/
  txPartial : List Byte
  /-- How many draws GET_REMAINING has taken (model's own, log 3). -/
  draws : Nat
  /-- What the last completed request, driver call or host read returned (model's own, log 13). -/
  result : Option Result
  /-- The environment steps at the next event boundaries of the request in execution (model's own, log 5). -/
  sched : List (List EnvStep)
  /-- The steps the agents take next, oldest first (model's own, log 5). -/
  inputs : List Input
  /-- A driver call laid out alone as the next event; `none` on every run from reset (model's own, log 11). -/
  driverCall : Option Byte
deriving DecidableEq, Repr

/-- The state after reset for the given parameters (R159). -/
def State.resetWith (p : Params) : State where
  params := p
  rxbuf := []
  txbuf := []
  stage := []
  rxState := .idle
  rxLanded := 0
  doneFlag := false
  rxGhost := false
  txBusy := false
  txSent := 0
  answeredFast := false
  armedSinceReset := false
  busyOp := .none
  phase := .idle
  hsState := .idle
  fault := none
  trace := []
  txFrames := []
  txPartial := []
  draws := 0
  result := none
  sched := []
  inputs := []
  driverCall := none

/-- The machine right after reset (R159), with the parameters of log 1. -/
def State.reset : State := State.resetWith Config.defaultParams

end Sys2Proof.Machine
end

