-- ==== Sys2Proof/Machine/Codec.lean ====
section
/-! DEFINITION. The frame codec: pure, total functions over byte strings and field records (R61 to R65, R79
to R92). Functions of the layout take the parameters for `F`, `N`, `M` and `T`. -/

namespace Sys2Proof.Machine

/-- `TYPE_OFF` (R61). -/
def typeOff : Nat := 0

/-- `LEN1_OFF` (R61). -/
def len1Off : Nat := 2

/-- `PAY_OFF` (R61). -/
def payOff : Nat := 4

/-- `LEN2_OFF = F-4` (R61). -/
def len2Off (p : Params) : Nat := p.frameSize - 4

/-- `VALID_OFF = F-2` (R61). -/
def validOff (p : Params) : Nat := p.frameSize - 2

/-- A Transport Frame as a record of its fields (R61, R80). -/
structure Frame where
  type : Half
  len1 : Half
  pay : List Byte
  len2 : Half
  valid : Half
deriving DecidableEq, Repr

/-- `le16(lo, hi) = hi ++ lo` (R46, R79). -/
def le16 (lo hi : Byte) : Half := hi ++ lo

/-- The byte `v[7:0]` of `bytes16(v)` (R79). -/
def loByte (v : Half) : Byte := v.extractLsb' 0 8

/-- The byte `v[15:8]` of `bytes16(v)` (R79). -/
def hiByte (v : Half) : Byte := v.extractLsb' 8 8

/-- `bytes16(v) = (v[7:0], v[15:8])` (R79). -/
def bytes16 (v : Half) : Byte × Byte := (loByte v, hiByte v)

/-- `bytes16(v)` as the two successive bytes of a byte string. -/
def bytesOf16 (v : Half) : List Byte := [loByte v, hiByte v]

/-- `serialize_frame` (R80). -/
def serializeFrame (fr : Frame) : List Byte :=
  bytesOf16 fr.type ++ bytesOf16 fr.len1 ++ fr.pay ++ bytesOf16 fr.len2 ++ bytesOf16 fr.valid

/-- The 16-bit field of a byte string at an offset (R46). -/
def fieldAt (b : List Byte) (off : Nat) : Half := le16 (b.getD off 0) (b.getD (off + 1) 0)

/-- `deserialize_frame`, on a string of `F` bytes (R81). -/
def deserializeFrame (p : Params) (b : List Byte) : Frame where
  type := fieldAt b typeOff
  len1 := fieldAt b len1Off
  pay := (b.drop payOff).take p.payloadCap
  len2 := fieldAt b (len2Off p)
  valid := fieldAt b (validOff p)

/-- `header_ready` (R83). -/
def headerReady (arrived : Nat) : Bool := decide (4 ≤ arrived)

/-- `fast_ready`, without wrap (R83, R9). -/
def fastReady (arrived : Nat) (len1 : Half) : Bool := len1 != 0 && decide (4 + len1.toNat ≤ arrived)

/-- `resolve_full` (R84). -/
def resolveFull (len1 valid len2 : Half) : Resolution :=
  if len1 ≠ 0 then .len len1.toNat
  else if valid ≠ 0 then .len len2.toNat
  else .invalid

/-- `resolve_completed`; `none` is the rule's `NONE` (R85). -/
def resolveCompleted (answered : Bool) (valid len2 : Half) : Option Nat :=
  if answered = false ∧ valid ≠ 0 then some len2.toNat else none

/-- `over_length(L) = (L > N)` (R86). -/
def overLength (p : Params) (l : Nat) : Bool := decide (p.payloadCap < l)

/-- `well_formed`, the sender's side (R63, R87). -/
def wellFormed (p : Params) (fr : Frame) : Bool :=
  fr.valid != 0 && decide (fr.len2.toNat ≤ p.payloadCap) && (fr.len1 == 0 || fr.len1 == fr.len2)

/-- `resolve_any`, an alias of `resolve_full` (R88). -/
def resolveAny (len1 valid len2 : Half) : Resolution := resolveFull len1 valid len2

/-- The outcome of `cmd_check` (R89). -/
inductive CmdCheck where
  | ok (id : Half) (auth : Bool) (len : Nat) (bound : Nat)
  | drop
deriving DecidableEq, Repr

/-- A command identifier with bit `AUTH_BIT` cleared (R65). -/
def clearAuth (t : Half) : Half := t &&& ~~~((1 : Half) <<< Config.authBit)

/-- `cmd_check(L, p)`, the Command Message checks of the upper layer (R65, R89); the block never calls it. -/
def cmdCheck (p : Params) (l : Nat) (pay : List Byte) : CmdCheck :=
  let t := fieldAt pay 0
  let n := (fieldAt pay 2).toNat
  if l < 4 then .drop
  else if n ≠ l - 4 ∨ p.cmdCap < n then .drop
  else if t.getLsbD Config.authBit then .ok (clearAuth t) true n (p.cmdCap - p.authTagSize)
  else .ok t false n p.cmdCap

/-- `frame_fields(type, Lr)`: the four fields of a reply frame, over the given payload region (R90). -/
def frameFields (type lr : Half) (pay : List Byte) : Frame where
  type := type
  len1 := lr
  pay := pay
  len2 := lr
  valid := Config.replyValid

/-- `tx_frame_ok` on the three fields it reads (R91). -/
def txFrameOk (p : Params) (len1 len2 valid : Half) : Bool :=
  len1 == len2 && valid != 0 && decide (len1.toNat ≤ p.payloadCap)

end Sys2Proof.Machine
end

