-- ==== Sys2Proof/Machine/Flags.lean ====
section
/-! DEFINITION. Fault codes (R142), the read-only status views (R35 to R37), and the conditions on the
flags that rules test: `quiescent` (R131) and the driver's transfer-in-progress test (R96). -/

namespace Sys2Proof.Machine

/-- The code of a fault (R142). -/
def FaultRecord.code : FaultRecord → BitVec 8
  | .illegalRequest _ => 1
  | .sequenceError _ _ => 2
  | .notArmedSinceReset _ => 3
  | .remainingOutOfRange _ => 4
  | .rxOverrun _ _ => 5
  | .uninitRead _ => 6
  | .txBusy _ => 7
  | .badTxFrame _ _ _ => 8

/-- `RX_STATE` of TRSTATUS (R35). -/
def RxState.code : RxState → BitVec 2
  | .idle => 0
  | .active => 1
  | .donePending => 2
  | .done => 3

/-- `HS_STATE` of TRSTATUS (R35). -/
def HsState.code : HsState → BitVec 2
  | .idle => 0
  | .armed => 1
  | .reqSent => 2
  | .wait => 3

/-- `BUSY_OP` of TRSTATUS (R35). -/
def BusyOp.code : BusyOp → BitVec 2
  | .none => 0
  | .acpHold => 1
  | .wait _ => 2

/-- `DISPATCHING` of TRSTATUS (R35). -/
def Phase.isDispatching : Phase → Bool
  | .idle => false
  | .dispatching _ _ _ _ => true

/-- `d_rearm` when dispatching, else 0 (R30, R35). -/
def Phase.rearm : Phase → Bool
  | .idle => false
  | .dispatching _ _ _ r => r

/-- `phase` with `d_rearm` set, where there is a dispatch (R134). -/
def Phase.markRearm : Phase → Phase
  | .idle => .idle
  | .dispatching t l m _ => .dispatching t l m true

/-- TRSTATUS (R35). -/
def State.trstatus (s : State) : BitVec 16 :=
  0#2 ++ (BitVec.ofBool s.fault.isSome ++ (BitVec.ofBool s.armedSinceReset ++ (s.busyOp.code ++
    (s.hsState.code ++ (BitVec.ofBool s.txBusy ++ (BitVec.ofBool s.phase.rearm ++
      (BitVec.ofBool s.phase.isDispatching ++ (BitVec.ofBool s.answeredFast ++
        (BitVec.ofBool s.rxGhost ++ (BitVec.ofBool s.doneFlag ++ s.rxState.code))))))))))

/-- TRFAULT: the fault code in bits 7:0, 0 when there is no fault (R36). -/
def State.trfault (s : State) : BitVec 16 :=
  match s.fault with
  | none => 0
  | some r => 0#8 ++ r.code

/-- RX_LANDED (R37). -/
def State.rxLandedView (s : State) : BitVec 16 := BitVec.ofNat 16 s.rxLanded

/-- A receive transfer is in progress: `rx_state` is ACTIVE or DONE_PENDING (R96). -/
def RxState.inTransfer : RxState → Bool
  | .idle => false
  | .active => true
  | .donePending => true
  | .done => false

/-- `quiescent()`: no transfer is part-way (R131). -/
def State.quiescent (s : State) : Bool :=
  !(s.rxState == .active && decide (0 < s.rxLanded)) && s.rxState != .donePending &&
    !s.rxGhost && !s.txBusy

end Sys2Proof.Machine
end

