-- ==== Sys2Proof/Machine/Memory.lean ====
section
/-! DEFINITION. Reads and writes of one byte-addressed space (R41, R43, R45), and its canonical form. -/

namespace Sys2Proof.Machine

/-- The byte at an offset, or `none` where nothing has been written since reset (R19, R43). This is the one
definition of what an unlisted offset holds (log 4). -/
def Memory.read : Memory → Nat → Option Byte
  | [], _ => none
  | (a, b) :: rest, off => if a = off then some b else Memory.read rest off

/-- Replaces the byte at an offset (R45), keeping the offsets strictly rising. -/
def Memory.write : Memory → Nat → Byte → Memory
  | [], off, v => [(off, v)]
  | (a, b) :: rest, off, v =>
    if off < a then (off, v) :: (a, b) :: rest
    else if off = a then (off, v) :: rest
    else (a, b) :: Memory.write rest off v

/-- The canonical form: offsets strictly rising. No cell equals what an unlisted offset holds, since that
is no byte at all. -/
def Memory.wf : Memory → Bool
  | [] => true
  | [_] => true
  | (a, _) :: (a', b') :: rest => decide (a < a') && Memory.wf ((a', b') :: rest)

/-- Every listed offset is below `n` (R41: no offset of `F` or more exists). -/
def Memory.within (m : Memory) (n : Nat) : Bool := m.all fun c => decide (c.1 < n)

end Sys2Proof.Machine
end

