-- ==== Sys2Proof/Machine/Ops.lean ====
section
/-! DEFINITION. The named operations every meaning is written with: the atomic events on State (buffer
accesses, trace, raising a fault, the driver primitives), the environment steps, requests as sequences of
events with environment steps between them, and the gates a step passes first. -/

namespace Sys2Proof.Machine

open Host (Outcome)

/-! ## Events on State -/

/-- `emit E` (R10, R33). -/
def State.emit (s : State) (e : Event) : State := { s with trace := s.trace ++ [e] }

/-- TAKING A FAULT, the one operation for all eight: `fault <- FAULTED(code, info)`, no trace event (R141).
Code and info are one record; nothing else changes. There is no trap entry, no saved state and no return:
only reset clears it (R154). -/
def State.raise (s : State) (r : FaultRecord) : State := { s with fault := some r }

/-- Hands a value back to the caller (log 13). -/
def State.withResult (s : State) (r : Option Result) : State := { s with result := r }

/-- `answered_fast <- b` (R27). -/
def State.setAnswered (s : State) (b : Bool) : State := { s with answeredFast := b }

/-- `phase <- p` (R30). -/
def State.setPhase (s : State) (p : Phase) : State := { s with phase := p }

/-- `hs_state <- h` (R31). -/
def State.setHs (s : State) (h : HsState) : State := { s with hsState := h }

/-- `busy_op <- b` (R29). -/
def State.setBusy (s : State) (b : BusyOp) : State := { s with busyOp := b }

/-- The byte `BufRead(B, off)` returns, or `none` where it faults: RXBUF at a byte never written (R44). STAGE
and TXBUF hold their reset draw until written and never fault (R20, R21, R44). -/
def State.readByte (s : State) : Buffer → Nat → Option Byte
  | .rxbuf, off => s.rxbuf.read off
  | .txbuf, off => some ((s.txbuf.read off).getD (Config.txbufDraw off))
  | .stage, off => some ((s.stage.read off).getD (Config.stageDraw off))

/-- The byte of STAGE at an offset (R21). -/
def State.stageByte (s : State) (off : Nat) : Byte := (s.stage.read off).getD (Config.stageDraw off)

/-- The byte of TXBUF at an offset (R20). -/
def State.txByteAt (s : State) (off : Nat) : Byte := (s.txbuf.read off).getD (Config.txbufDraw off)

/-- `BufWrite(B, off, b)` (R45). Listing the offset in RXBUF is setting its `rx_written` bit (R19). -/
def State.writeByte (s : State) : Buffer → Nat → Byte → State
  | .rxbuf, off, b => { s with rxbuf := s.rxbuf.write off b }
  | .txbuf, off, b => { s with txbuf := s.txbuf.write off b }
  | .stage, off, b => { s with stage := s.stage.write off b }

/-! ## The driver primitives, each one atomic event (R48, R93) -/

/-- Re-arming or cancelling in DONE_PENDING leaves a ghost when `STALE_COMPLETION = MAY_FIRE` (R25). -/
def State.leavesGhost (s : State) : Bool :=
  s.rxState == .donePending && s.params.staleCompletion == .mayFire

/-- `ARM_RX` (R94). -/
def State.armRx (s : State) : State :=
  { s with
    rxGhost := s.rxGhost || s.leavesGhost
    rxState := .active
    rxLanded := 0
    armedSinceReset := true
    trace := s.trace ++ [.armRx] }

/-- `ARM_TX` (R95). -/
def State.armTx (s : State) : State :=
  { s with txBusy := true, txSent := 0, trace := s.trace ++ [.armTx] }

/-- The count `GET_REMAINING` returns (R96). Under `ANY` outside a transfer it is the free draw reduced into
`0..F` (log 3). -/
def State.remaining (s : State) : Nat :=
  if s.rxState.inTransfer then s.params.frameSize - s.rxLanded
  else match s.params.remainingIdle with
    | .zero => 0
    | .full => s.params.frameSize
    | .any => (Config.remainingDraw s.draws).toNat % (s.params.frameSize + 1)

/-- Whether `GET_REMAINING` takes a fresh draw (R49, R96). -/
def State.takesDraw (s : State) : Bool :=
  !s.rxState.inTransfer && s.params.remainingIdle == .any

/-- `GET_REMAINING` as an event (R96). -/
def State.tookRemaining (s : State) : State :=
  { s with
    draws := if s.takesDraw then s.draws + 1 else s.draws
    trace := s.trace ++ [.remaining s.remaining] }

/-- `CHK_CLR_DONE` as an event; the value it returns is `done_flag` before it (R97). -/
def State.chkClrDone (s : State) : State :=
  { s with doneFlag := false, trace := s.trace ++ [.chkDone s.doneFlag] }

/-- `CANCEL` (R98). -/
def State.cancelRx (s : State) : State :=
  { s with
    rxGhost := s.rxGhost || s.leavesGhost
    rxState := .idle
    trace := s.trace ++ [.cancelRx] }

/-- The one event with which ARM_AND_CLEAR_PENDING arms reception and clears every pending completion
(R130). -/
def State.armAndClear (s : State) : State :=
  { s.armRx with doneFlag := false, answeredFast := false }

/-! ## Environment steps -/

/-- `RX_LAND(b)` (R99). -/
def State.rxLand (s : State) (b : Byte) : State :=
  if s.rxState = .active then
    { s with
      rxbuf := s.rxbuf.write s.rxLanded b
      rxLanded := s.rxLanded + 1
      rxState := if s.rxLanded + 1 = s.params.frameSize then .donePending else .active }
  else s.raise (.rxOverrun b s.rxState)

/-- `RX_COMPLETE`, enabled in DONE_PENDING (R100). -/
def State.rxComplete (s : State) : State :=
  if s.rxState = .donePending then { s with doneFlag := true, rxState := .done } else s

/-- `GHOST_FIRE`, enabled while a ghost is pending (R101). -/
def State.ghostFire (s : State) : State :=
  if s.rxGhost then { s with doneFlag := true, rxGhost := false } else s

/-- `GHOST_DROP`, enabled while a ghost is pending (R101). -/
def State.ghostDrop (s : State) : State :=
  if s.rxGhost then { s with rxGhost := false } else s

/-- `TX_BYTE`, enabled while `tx_busy` (R102). -/
def State.txByte (s : State) : State :=
  if s.txBusy then
    if s.txSent + 1 = s.params.frameSize then
      { s with
        txBusy := false
        txSent := s.txSent + 1
        txFrames := s.txFrames ++ [s.txPartial ++ [s.txByteAt s.txSent]]
        txPartial := [] }
    else
      { s with txSent := s.txSent + 1, txPartial := s.txPartial ++ [s.txByteAt s.txSent] }
  else s

/-- A WAIT_RX_AND_CLEAR is holding (R29). -/
def BusyOp.isWait : BusyOp → Bool
  | .none => false
  | .acpHold => false
  | .wait _ => true

/-- `TIMEOUT`, enabled while `busy_op = WAIT(...)` and `HS_TIMEOUT = NONDET` (R135). -/
def State.hsTimeout (s : State) : State :=
  if s.params.hsTimeout = .nondet ∧ s.busyOp.isWait then
    { s with
      trace := s.trace ++ [.hsTimeout]
      hsState := .idle
      busyOp := .none
      result := some .timeout }
  else s

/-- One environment step. From a faulted state no agent takes a step (R141); a step that is not enabled does
not occur (log 7). -/
def State.envStep (s : State) (e : EnvStep) : State :=
  if s.fault.isSome then s
  else match e with
    | .rxLand b => s.rxLand b
    | .rxComplete => s.rxComplete
    | .ghostFire => s.ghostFire
    | .ghostDrop => s.ghostDrop
    | .txByte => s.txByte
    | .timeout => s.hsTimeout

/-- Environment steps one after another. -/
def State.runEnv : State → List EnvStep → State
  | s, [] => s
  | s, e :: es => State.runEnv (s.envStep e) es

/-! ## Requests as sequences of events -/

/-- Why a request ends before its last event: a fault was raised, by itself or between two of its events
(R141), or TIMEOUT ended its wait (R135). -/
inductive Stop where
  | faulted
  | timedOut
deriving DecidableEq, Repr

/-- A piece of a request: a sequence of events on State with `between` between them (R13, R18). -/
abbrev Block (α : Type) := EStateM Stop State α

/-- The point between two events of a request: the environment steps of the next burst of the schedule occur
(R13, log 5). A fault among them stops the request (R141); a TIMEOUT among them ends it (R135). -/
def between : Block Unit := fun s =>
  match s.sched with
  | [] => .ok () s
  | burst :: rest =>
    let t := State.runEnv { s with sched := rest } burst
    if t.fault.isSome then .error .faulted t
    else if t.busyOp ≠ s.busyOp then .error .timedOut t
    else .ok () t

/-- One event that writes State and returns nothing. -/
def event (f : State → State) : Block Unit := fun s => .ok () (f s)

/-- Looks at State without an event. -/
def look {α : Type} (f : State → α) : Block α := fun s => .ok (f s) s

/-- `raise` inside a request: one event, the last (R141). -/
def raiseFault {α : Type} (r : FaultRecord) : Block α := fun s => .error .faulted (s.raise r)

/-- `BufRead(B, off)` as an event: no side effect, and UNINIT_READ at a byte of RXBUF never written (R43,
R44, R148). -/
def bufRead (b : Buffer) (off : Nat) : Block Byte := fun s =>
  match s.readByte b off with
  | some v => .ok v s
  | none => .error .faulted (s.raise (.uninitRead off))

/-- `BufWrite(B, off, b)` as an event (R45). -/
def bufWrite (b : Buffer) (off : Nat) (v : Byte) : Block Unit := event fun s => s.writeByte b off v

/-- `Rd16(B, off)`: two byte reads, lower offset first, not atomic (R10, R46, R48). -/
def rd16 (b : Buffer) (off : Nat) : Block Half := do
  let lo ← bufRead b off
  between
  let hi ← bufRead b (off + 1)
  return le16 lo hi

/-- `Wr16(B, off, v)`: two byte writes, lower offset first (R10, R46, R48). -/
def wr16 (b : Buffer) (off : Nat) (v : Half) : Block Unit := do
  bufWrite b off (loByte v)
  between
  bufWrite b (off + 1) (hiByte v)

/-- `call GET_REMAINING()` (R96). -/
def callGetRemaining : Block Nat := fun s => .ok s.remaining s.tookRemaining

/-- `call CHK_CLR_DONE()` (R97). -/
def callChkClrDone : Block Bool := fun s => .ok s.doneFlag s.chkClrDone

/-- `rearm_rx()` (R110). -/
def rearmRx : Block Unit := do
  event State.armRx
  between
  event fun s => s.setAnswered false

/-- Copies the `n` bytes from offset `off` of STAGE to TXBUF, at increasing offsets, each read and each write
an event (R126). -/
def copyBytes : Nat → Nat → Block Unit
  | _, 0 => return ()
  | off, n + 1 => do
    let b ← bufRead .stage off
    between
    bufWrite .txbuf off b
    between
    copyBytes (off + 1) n

/-- `send_frame()`: all `F` bytes are written before transmission is armed (R56, R126). -/
def sendFrame : Block Unit := do
  let n ← look fun s => s.params.frameSize
  copyBytes 0 n
  event State.armTx

/-- The request is over and hands `r` back (log 13); not an event. -/
def complete (r : Result) : Block Unit := event fun s => s.withResult (some r)

/-! ## Gates -/

/-- The state a sequence of events leaves, whether it ran to its end or was stopped. -/
def finish (body : Block Unit) (s : State) : State :=
  match body s with
  | .ok _ t => t
  | .error _ t => t

/-- Every step: parameters outside R7 are refused (R152), and no agent takes a step from a faulted state
(R141). -/
def guarded (s : State) (next : Outcome State Fault Refusal) : Outcome State Fault Refusal :=
  if s.params.ok = false then .refused .parametersOutOfBounds
  else match s.fault with
    | some r => .fault (.halted r)
    | none => next

/-- A host request: refused while another request holds (R12, R152), else its events run. -/
def hostRequest (body : Block Unit) (s : State) : Outcome State Fault Refusal :=
  guarded s
    (if s.busyOp ≠ .none then .refused .hostStepDuringHold
      else .next (finish body (s.withResult none)))

/-- A driver call: one atomic event that never fails (R93). -/
def driverEvent (f : State → State) (s : State) : Outcome State Fault Refusal :=
  guarded s (.next (f s))

end Sys2Proof.Machine
end

