-- ==== Sys2Proof/Machine/Driver.lean ====
section
/-! DEFINITION. The five primitive calls to the DMA driver as instructions of their own (R74, R93 to R98).
Each is one atomic event; none can fail or fault. -/

namespace Sys2Proof.Machine

open Host (Outcome)

/-- `ARM_RX` (R94). -/
def execArmRx (s : State) : Outcome State Fault Refusal :=
  driverEvent (fun s => s.armRx.withResult (some .completed)) s

/-- `ARM_TX` (R95). -/
def execArmTx (s : State) : Outcome State Fault Refusal :=
  driverEvent (fun s => s.armTx.withResult (some .completed)) s

/-- `GET_REMAINING`: returns the remaining count (R96). -/
def execGetRemaining (s : State) : Outcome State Fault Refusal :=
  driverEvent (fun s => s.tookRemaining.withResult (some (.remaining s.remaining))) s

/-- `CHK_CLR_DONE`: returns the flag as it stood and clears it (R97). -/
def execChkClrDone (s : State) : Outcome State Fault Refusal :=
  driverEvent (fun s => s.chkClrDone.withResult (some (.flag s.doneFlag))) s

/-- `CANCEL` (R98). -/
def execCancel (s : State) : Outcome State Fault Refusal :=
  driverEvent (fun s => s.cancelRx.withResult (some .completed)) s

end Sys2Proof.Machine
end

