-- ==== Sys2Proof/Machine/Operands.lean ====
section
/-! DEFINITION. The operands requests take from the buffers: the resolution of a landed frame's length,
read lazily from RXBUF, and the fields of the frame in STAGE (R61, R84, R88, R91). -/

namespace Sys2Proof.Machine

/-- The length of a frame known to have landed whole, reading `payload_valid_flag` and `payload_length_2`
only where the rule consults them (R84, R88, R111 case 1a, R132). -/
def readResolution : Block Resolution := do
  let p ← look fun s => s.params
  let len1 ← rd16 .rxbuf len1Off
  if len1 ≠ 0 then
    return .len len1.toNat
  else
    between
    let valid ← rd16 .rxbuf (validOff p)
    if valid ≠ 0 then
      between
      let len2 ← rd16 .rxbuf (len2Off p)
      return .len len2.toNat
    else
      return .invalid

/-- Writes the four fields of a reply frame into STAGE (R90, R119). -/
def writeReplyFields (type lr : Half) : Block Unit := do
  let p ← look fun s => s.params
  wr16 .stage typeOff type
  between
  wr16 .stage len1Off lr
  between
  wr16 .stage (len2Off p) lr
  between
  wr16 .stage (validOff p) Config.replyValid

end Sys2Proof.Machine
end

