-- ==== Sys2Proof/Machine/Handshake.lean ====
section
/-! DEFINITION. The inter-processor handshake: ARM_AND_CLEAR_PENDING, WAIT_RX_AND_CLEAR, DMA_CANCEL, and the
block's turn in a request that is holding (44_handshake.md). -/

namespace Sys2Proof.Machine

open Host (Outcome)

/-- ARM_AND_CLEAR_PENDING's turn: it has no event until the hardware is quiescent, then arms and clears in one
event (R130, R131). -/
def acpTurn : Block Unit := do
  let quiet ← look fun s => s.quiescent
  if quiet then
    event State.armAndClear
    between
    event fun s => s.setBusy .none
    between
    event fun s => s.setHs .armed
    complete .completed
  else
    return ()

/-- `ARM_AND_CLEAR_PENDING` (R130). -/
def armAndClearPendingBody : Block Unit := do
  event fun s => s.setBusy .acpHold
  between
  acpTurn

/-- The meaning of `ARM_AND_CLEAR_PENDING` (R130). -/
def execArmAndClearPending (s : State) : Outcome State Fault Refusal :=
  hostRequest armAndClearPendingBody s

/-- `match(t, L)`: the awaited reply stays in RXBUF, unarmed (R134). -/
def hsMatch (t : Half) (l : Nat) : Block Unit := do
  event fun s => s.emit (.hsMatch t l)
  between
  event fun s => s.setAnswered false
  between
  event fun s => s.setPhase s.phase.markRearm
  between
  event fun s => s.setHs .idle
  between
  event fun s => s.setBusy .none
  complete (.matched t l)

/-- `discard(t, r)`: the frame is dropped, reception re-armed, and the wait goes on (R133). -/
def hsDiscard (t : Half) (r : Resolution) : Block Unit := do
  event fun s => s.emit (.hsDiscard t r)
  between
  rearmRx

/-- The frame is the awaited reply: its length is resolved and not over-length, and its type is the expected
one (R132). -/
def awaited (p : Params) (expected t : Half) (r : Resolution) : Option Nat :=
  match r with
  | .invalid => none
  | .len l => if overLength p l = false ∧ t = expected then some l else none

/-- WAIT_RX_AND_CLEAR's turn, one round of its loop: it has no event until `done_flag` is TRUE (R132). -/
def waitTurn (expected : Half) : Block Unit := do
  let p ← look fun s => s.params
  let flag ← look fun s => s.doneFlag
  if flag then
    let _ ← callChkClrDone
    between
    let r ← readResolution
    between
    let t ← rd16 .rxbuf typeOff
    between
    match awaited p expected t r with
    | some l => hsMatch t l
    | none => hsDiscard t r
  else
    return ()

/-- `WAIT_RX_AND_CLEAR` (R132). -/
def waitRxAndClearBody (expected : Half) : Block Unit := do
  let armed ← look fun s => s.armedSinceReset
  if armed = false then raiseFault (.notArmedSinceReset .waitRxAndClear)
  else
    event fun s => s.setHs .wait
    between
    event fun s => s.setBusy (.wait expected)
    between
    waitTurn expected

/-- The meaning of `WAIT_RX_AND_CLEAR` (R132). -/
def execWaitRxAndClear (expected : Half) (s : State) : Outcome State Fault Refusal :=
  hostRequest (waitRxAndClearBody expected) s

/-- The meaning of `DMA_CANCEL` (R136). -/
def execDmaCancel (s : State) : Outcome State Fault Refusal :=
  hostRequest (do event State.cancelRx; complete .completed) s

/-- The block's turn in the request that is holding; with none holding nothing happens (R29, log 6). -/
def resumeHeld (s : State) : Outcome State Fault Refusal :=
  guarded s (match s.busyOp with
    | .none => .next s
    | .acpHold => .next (finish acpTurn s)
    | .wait expected => .next (finish (waitTurn expected) s))

end Sys2Proof.Machine
end

