-- ==== Sys2Proof/WellFormed.lean ====
section
/-! DEFINITION. Which instruction terms an encoding stands for. The only operand constraint the
constructors' types do not carry is DISPATCH_RETURN's: with `REPLY = 0`, `ARG16` must be 0 (R70, R71). -/

namespace Sys2Proof

/-- An instruction that some request word or primitive code encodes (R70, R71). -/
def Instr.wf : Instr → Bool
  | .beginReceive => true
  | .poll _ => true
  | .send => true
  | .armAndClearPending => true
  | .waitRxAndClear _ => true
  | .dmaCancel => true
  | .dispatchReturn reply lr => reply || lr == 0
  | .armRx => true
  | .armTx => true
  | .getRemaining => true
  | .chkClrDone => true
  | .cancel => true

/-- The request is one of the five driver primitives, which no host word encodes (R74). -/
def Instr.isPrimitive : Instr → Bool
  | .beginReceive => false
  | .poll _ => false
  | .send => false
  | .armAndClearPending => false
  | .waitRxAndClear _ => false
  | .dmaCancel => false
  | .dispatchReturn _ _ => false
  | .armRx => true
  | .armTx => true
  | .getRemaining => true
  | .chkClrDone => true
  | .cancel => true

end Sys2Proof
end

