-- ==== Sys2Proof/Decode.lean ====
section
/-! DEFINITION. Decoding of request words and primitive codes, rejecting by name (R66 to R74), and the
encoder written from the same tables. -/

namespace Sys2Proof

/-- What a decoder is given: a host's 32-bit request word (R66) or the 8-bit code of a driver call (R74). -/
inductive Code where
  | request (word : Word)
  | primitive (code : Byte)
deriving DecidableEq, Repr

/-- Why a code stands for no instruction. -/
inductive DecodeError where
  /-- R71: the word is illegal. -/
  | illegalRequest (word : Word)
  /-- R74: no primitive has this code. -/
  | noSuchPrimitive (code : Byte)
deriving DecidableEq, Repr

/-- `OPSEL`, bits 3:0 (R66). -/
def opselField (w : Word) : BitVec 4 := w.extractLsb' 0 4

/-- The reserved bits 7:4 (R66). -/
def reservedLow (w : Word) : BitVec 4 := w.extractLsb' 4 4

/-- `MOD`, bits 9:8 (R66). -/
def modField (w : Word) : BitVec 2 := w.extractLsb' 8 2

/-- The reserved bits 15:10 (R66). -/
def reservedHigh (w : Word) : BitVec 6 := w.extractLsb' 10 6

/-- `ARG16`, bits 31:16 (R66). -/
def argField (w : Word) : Half := w.extractLsb' 16 16

/-- The Restriction Mode of a POLL's `MOD` field (R68); code 3 is none. -/
def rmodeOfCode (c : BitVec 2) : Option RMode :=
  if c = 0 then some .unrestricted
  else if c = 1 then some .onlyPingAndCancel
  else if c = 2 then some .allButAdministrativeBundle
  else none

/-- A request with no operand: `MOD` and `ARG16` must be 0 (R71). -/
def plainRequest (w : Word) (i : Instr) : Option Instr :=
  if modField w = 0 ∧ argField w = 0 then some i else none

/-- POLL (R68): `RMODE` in `MOD`, `ARG16` must be 0 (R71). -/
def pollRequest (w : Word) : Option Instr :=
  if argField w = 0 then (rmodeOfCode (modField w)).map .poll else none

/-- WAIT_RX_AND_CLEAR (R69): any `ARG16`, `MOD` must be 0 (R71). -/
def waitRequest (w : Word) : Option Instr :=
  if modField w = 0 then some (.waitRxAndClear (argField w)) else none

/-- DISPATCH_RETURN (R70): bit 8 is `REPLY`, bit 9 must be 0; `ARG16` must be 0 with `REPLY = 0` (R71). -/
def returnRequest (w : Word) : Option Instr :=
  if modField w = 0 ∧ argField w = 0 then some (.dispatchReturn false 0)
  else if modField w = 1 then some (.dispatchReturn true (argField w))
  else none

/-- The request a word selects by `OPSEL` (R67), where its fields are legal (R71). -/
def requestOf (w : Word) : Option Instr :=
  if reservedLow w ≠ 0 ∨ reservedHigh w ≠ 0 then none
  else if opselField w = 0x1 then plainRequest w .beginReceive
  else if opselField w = 0x2 then pollRequest w
  else if opselField w = 0x3 then plainRequest w .send
  else if opselField w = 0x4 then plainRequest w .armAndClearPending
  else if opselField w = 0x5 then waitRequest w
  else if opselField w = 0x6 then plainRequest w .dmaCancel
  else if opselField w = 0x7 then returnRequest w
  else none

/-- The primitive a code names (R74). -/
def primitiveOf (c : Byte) : Option Instr :=
  if c = 0x01 then some .armRx
  else if c = 0x02 then some .armTx
  else if c = 0x03 then some .getRemaining
  else if c = 0x04 then some .chkClrDone
  else if c = 0x05 then some .cancel
  else none

/-- The decoder, total on every code (R72, R74). -/
def decode : Code → Except DecodeError Instr
  | .request w =>
    match requestOf w with
    | some i => .ok i
    | none => .error (.illegalRequest w)
  | .primitive c =>
    match primitiveOf c with
    | some i => .ok i
    | none => .error (.noSuchPrimitive c)

/-- The request word of the given fields, reserved bits 0 (R66). -/
def requestWord (opsel : BitVec 4) (mod : BitVec 2) (arg : Half) : Word :=
  arg ++ (0#6 ++ (mod ++ (0#4 ++ opsel)))

/-- The code of an instruction (R66 to R70, R74). -/
def encode : Instr → Code
  | .beginReceive => .request (requestWord 0x1 0 0)
  | .poll rmode => .request (requestWord 0x2 rmode.code 0)
  | .send => .request (requestWord 0x3 0 0)
  | .armAndClearPending => .request (requestWord 0x4 0 0)
  | .waitRxAndClear expected => .request (requestWord 0x5 0 expected)
  | .dmaCancel => .request (requestWord 0x6 0 0)
  | .dispatchReturn reply lr => .request (requestWord 0x7 (if reply then 1 else 0) lr)
  | .armRx => .primitive 0x01
  | .armTx => .primitive 0x02
  | .getRemaining => .primitive 0x03
  | .chkClrDone => .primitive 0x04
  | .cancel => .primitive 0x05

/-- A row of the request map with the opcode table's mask and match (R72). -/
structure RequestRow where
  mask : Word
  pattern : Word
deriving DecidableEq, Repr

/-- The word has the row's fixed bits (R72). -/
def RequestRow.selects (r : RequestRow) (w : Word) : Bool := (w &&& r.mask) == r.pattern

/-- The seven request rows of the opcode table (R67, R72). -/
def requestRows : List RequestRow :=
  [⟨0xFFFFFFFF, 0x00000001⟩, ⟨0xFFFFFCFF, 0x00000002⟩, ⟨0xFFFFFFFF, 0x00000003⟩,
    ⟨0xFFFFFFFF, 0x00000004⟩, ⟨0x0000FFFF, 0x00000005⟩, ⟨0xFFFFFFFF, 0x00000006⟩,
    ⟨0x0000FEFF, 0x00000007⟩]

/-- The opcode table's two field constraints: POLL's `RMODE` is not 3, and DISPATCH_RETURN's `ARG16` is 0
when `REPLY = 0` (R71). -/
def fieldConstraints (w : Word) : Bool :=
  (opselField w != 0x2 || modField w != 3) &&
    (opselField w != 0x7 || modField w != 0 || argField w == 0)

/-- The instruction the decoder reads from a row's bits `w`: a request word for a 32-bit row, a primitive
code for an 8-bit row. The table's numbering is the request word's own (R8, R66). -/
def decodeTableWord (nbits w : Nat) : Option Instr :=
  if nbits = 32 then (decode (.request (BitVec.ofNat 32 w))).toOption
  else if nbits = 8 then (decode (.primitive (BitVec.ofNat 8 w))).toOption
  else none

end Sys2Proof
end

