-- ==== Sys2Proof/Machine/Transmit.lean ====
section
/-! DEFINITION. The transmit path: SEND (43_transmit.md). -/

namespace Sys2Proof.Machine

open Host (Outcome)

/-- SEND once the frame has been accepted: copy, arm, and the round trip's record (R125, R126, R129). -/
def sendAccepted : Block Unit := do
  sendFrame
  let hs ← look fun s => s.hsState
  if hs = .armed then
    between
    event fun s => s.setHs .reqSent
    complete .completed
  else
    complete .completed

/-- `SEND` (R125). -/
def sendBody : Block Unit := do
  let s ← look id
  if s.txBusy then raiseFault (.txBusy s.txSent)
  else
    let len1 ← rd16 .stage len1Off
    between
    let len2 ← rd16 .stage (len2Off s.params)
    between
    let valid ← rd16 .stage (validOff s.params)
    between
    if txFrameOk s.params len1 len2 valid then sendAccepted
    else raiseFault (.badTxFrame len1 len2 valid)

/-- The meaning of `SEND` (R125). -/
def execSend (s : State) : Outcome State Fault Refusal := hostRequest sendBody s

end Sys2Proof.Machine
end

