-- ==== Sys2Proof/Machine/Receive.lean ====
section
/-! DEFINITION. The receive path: BEGIN_RECEIVE, POLL (the dual-path completion detector) and
DISPATCH_RETURN (42_receive.md). -/

namespace Sys2Proof.Machine

open Host (Outcome)

/-- `BEGIN_RECEIVE` (R109). -/
def beginReceiveBody : Block Unit := do
  rearmRx
  complete .completed

/-- The meaning of `BEGIN_RECEIVE` (R109). -/
def execBeginReceive (s : State) : Outcome State Fault Refusal := hostRequest beginReceiveBody s

/-- A frame POLL has resolved: its length `L` and whether reception must be re-armed after the dispatch
(`rearm` of R111). -/
structure Resolved where
  len : Nat
  rearm : Bool
deriving DecidableEq, Repr

/-- POLL case 1a: the full frame landed before software looked; the completion is consumed (R111). -/
def pollLanded : Block (Option Resolved) := do
  let r ← readResolution
  match r with
  | .len l => return some ⟨l, true⟩
  | .invalid =>
    between
    event fun s => s.emit .dropInvalid
    between
    rearmRx
    return none

/-- POLL case 1b: completion not signalled, the fast path on `payload_length_1` (R111). -/
def pollFast (arrived : Nat) : Block (Option Resolved) := do
  let len1 ← rd16 .rxbuf len1Off
  if fastReady arrived len1 then
    between
    event fun s => s.setAnswered true
    return some ⟨len1.toNat, false⟩
  else
    return none

/-- The end of POLL case 2 without a dispatch: reception is re-armed (R111). -/
def pollDropCompleted : Block (Option Resolved) := do
  event fun s => s.emit .dropCompleted
  between
  rearmRx
  between
  event fun s => s.setAnswered false
  return none

/-- POLL case 2 once the completion is consumed: dispatch on `payload_length_2` unless the frame was answered
or its `payload_valid_flag` is clear; `answered_fast` is cleared in either case (R85, R111). -/
def pollCompleted : Block (Option Resolved) := do
  let p ← look fun s => s.params
  let answered ← look fun s => s.answeredFast
  if answered then
    pollDropCompleted
  else
    let valid ← rd16 .rxbuf (validOff p)
    between
    if valid ≠ 0 then
      let len2 ← rd16 .rxbuf (len2Off p)
      between
      event fun s => s.setAnswered false
      return some ⟨len2.toNat, true⟩
    else
      pollDropCompleted

/-- POLL's two cases, from the arrived count (R111). -/
def pollDetect (arrived : Nat) : Block (Option Resolved) := do
  let answered ← look fun s => s.answeredFast
  let flag ← callChkClrDone
  if headerReady arrived && !answered then
    between
    if flag then pollLanded else pollFast arrived
  else if flag then
    between
    pollCompleted
  else
    return none

/-- POLL case 3 and the hand-off: an over-length frame is dropped, any other is handed up (R86, R111). -/
def pollDeliver (rmode : RMode) (f : Resolved) : Block Unit := do
  let p ← look fun s => s.params
  between
  if overLength p f.len then
    event fun s => s.emit (.dropOverlen f.len)
    if p.overlenRearm && f.rearm then
      between
      rearmRx
      complete .noMsg
    else
      complete .noMsg
  else
    let t ← rd16 .rxbuf typeOff
    between
    event fun s => s.setPhase (.dispatching t f.len rmode f.rearm)
    between
    event fun s => s.emit (.dispatch t f.len rmode)
    complete .dispatched

/-- POLL once its sequence checks have passed: the arrived count, the detector, the hand-off (R111). -/
def pollRun (rmode : RMode) : Block Unit := do
  let p ← look fun s => s.params
  let rem ← callGetRemaining
  between
  if p.frameSize < rem then
    raiseFault (.remainingOutOfRange rem)
  else
    let found ← pollDetect (p.frameSize - rem)
    match found with
    | none => complete .noMsg
    | some f => pollDeliver rmode f

/-- `POLL` (R111). -/
def pollBody (rmode : RMode) : Block Unit := do
  let ph ← look fun s => s.phase
  let armed ← look fun s => s.armedSinceReset
  if ph ≠ .idle then raiseFault (.sequenceError .poll ph)
  else if armed = false then raiseFault (.notArmedSinceReset .poll)
  else pollRun rmode

/-- The meaning of `POLL` (R111). -/
def execPoll (rmode : RMode) (s : State) : Outcome State Fault Refusal := hostRequest (pollBody rmode) s

/-- `DISPATCH_RETURN` once its checks have passed: re-arm as `d_rearm` says, then frame and send the reply
(R119). -/
def returnRun (dType : Half) (dRearm : Bool) (reply : Bool) (lr : Half) : Block Unit := do
  event fun s => s.emit (.ret reply lr.toNat)
  between
  if dRearm then
    rearmRx
    between
    if reply then
      writeReplyFields dType lr
      between
      sendFrame
      between
      event fun s => s.setPhase .idle
    else
      event fun s => s.setPhase .idle
  else if reply then
    writeReplyFields dType lr
    between
    sendFrame
    between
    event fun s => s.setPhase .idle
  else
    event fun s => s.setPhase .idle
  complete .completed

/-- `DISPATCH_RETURN` (R119). An ill-formed operand pair is a word R71 makes illegal (log 17). -/
def dispatchReturnBody (reply : Bool) (lr : Half) : Block Unit := do
  let s ← look id
  if reply = false ∧ lr ≠ 0 then raiseFault (.illegalRequest (requestWord 0x7 0 lr))
  else match s.phase with
    | .idle => raiseFault (.sequenceError .dispatchReturn .idle)
    | .dispatching dType _ _ dRearm =>
      if reply = true ∧ s.txBusy = true then raiseFault (.txBusy s.txSent)
      else if reply = true ∧ s.params.payloadCap < lr.toNat then
        raiseFault (.badTxFrame lr lr Config.replyValid)
      else returnRun dType dRearm reply lr

/-- The meaning of `DISPATCH_RETURN` (R119). -/
def execDispatchReturn (reply : Bool) (lr : Half) (s : State) : Outcome State Fault Refusal :=
  hostRequest (dispatchReturnBody reply lr) s

end Sys2Proof.Machine
end

