-- ==== Sys2Proof/Machine/Dispatch.lean ====
section
/-! DEFINITION. One arm per instruction: the meaning of each request and each driver primitive. -/

namespace Sys2Proof.Machine

def exec (i : Instr) (s : State) : Host.Outcome State Fault Refusal :=
  match i with
  | .beginReceive => Sys2Proof.Machine.execBeginReceive s
  | .poll rmode => Sys2Proof.Machine.execPoll rmode s
  | .send => Sys2Proof.Machine.execSend s
  | .armAndClearPending => Sys2Proof.Machine.execArmAndClearPending s
  | .waitRxAndClear expected => Sys2Proof.Machine.execWaitRxAndClear expected s
  | .dmaCancel => Sys2Proof.Machine.execDmaCancel s
  | .dispatchReturn reply lr => Sys2Proof.Machine.execDispatchReturn reply lr s
  | .armRx => Sys2Proof.Machine.execArmRx s
  | .armTx => Sys2Proof.Machine.execArmTx s
  | .getRemaining => Sys2Proof.Machine.execGetRemaining s
  | .chkClrDone => Sys2Proof.Machine.execChkClrDone s
  | .cancel => Sys2Proof.Machine.execCancel s

end Sys2Proof.Machine
end

