-- ==== Sys2Proof/Machine/HostAccess.lean ====
section
/-! DEFINITION. The host's own accesses to the buffers, byte by byte (R41, R42, R44, R76, R152). -/

namespace Sys2Proof.Machine

open Host (Outcome)

/-- What every host access passes first: no access while a request holds (R12), none at an offset of `F` or
more (R41). -/
def hostAccess (s : State) (off : Nat) (next : Outcome State Fault Refusal) : Outcome State Fault Refusal :=
  guarded s
    (if s.busyOp ≠ .none then .refused .hostStepDuringHold
      else if s.params.frameSize ≤ off then .refused (.offsetOutOfRange off)
      else next)

/-- The host reads one byte: RXBUF, where a byte never written faults (R44), or STAGE; TXBUF is not granted
(R42). -/
def hostRead (space : Buffer) (off : Nat) (s : State) : Outcome State Fault Refusal :=
  hostAccess s off (match space with
    | .txbuf => .refused (.hostAccessNotGranted .txbuf)
    | .rxbuf => .next (match s.readByte .rxbuf off with
      | some b => s.withResult (some (.byte b))
      | none => s.raise (.uninitRead off))
    | .stage => .next (s.withResult (some (.byte (s.stageByte off)))))

/-- The host writes one byte of STAGE; RXBUF and TXBUF are not granted (R42). -/
def hostWrite (space : Buffer) (off : Nat) (b : Byte) (s : State) : Outcome State Fault Refusal :=
  hostAccess s off (match space with
    | .stage => .next (s.writeByte .stage off b)
    | .rxbuf => .refused (.hostAccessNotGranted .rxbuf)
    | .txbuf => .refused (.hostAccessNotGranted .txbuf))

end Sys2Proof.Machine
end

