-- ==== Sys2Proof/Machine/Fetch.lean ====
section
/-! DEFINITION. Which agent moves next and with what: the step State's plain data selects. The block fetches
nothing (R18); the host issues one request at a time (R12). -/

namespace Sys2Proof.Machine

open Host (Outcome)

/-- What the next step is: an instruction to execute in the given state, or the outcome of a step that
executes none. -/
inductive Selected where
  | run (i : Instr) (s : State)
  | outcome (o : Outcome State Fault Refusal)

/-- A driver call laid out as the next event (R74, log 11). -/
def selectCall (code : Byte) (s : State) : Selected :=
  match decode (.primitive code) with
  | .ok i => .run i s
  | .error _ => .outcome (guarded s (.refused (.noSuchPrimitive code)))

/-- A host request word: the decoded request, or ILLEGAL_REQUEST before any other event (R71, R143). -/
def selectRequest (word : Word) (s : State) : Selected :=
  match decode (.request word) with
  | .ok i => .run i s
  | .error _ => .outcome (hostRequest (raiseFault (.illegalRequest word)) s)

/-- The step one input stands for, in the state that no longer holds the input. -/
def selectInput (i : Input) (s : State) : Selected :=
  match i with
  | .request word during => selectRequest word { s with sched := during }
  | .resume during => .outcome (resumeHeld { s with sched := during })
  | .hostRead space off => .outcome (hostRead space off s)
  | .hostWrite space off b => .outcome (hostWrite space off b s)
  | .env e => .outcome (guarded s (.next (s.envStep e)))

/-- The next step: the driver call laid out, else the oldest input; with neither, no agent takes a step
(R170, log 8). -/
def select (s : State) : Selected :=
  match s.driverCall with
  | some code => selectCall code { s with driverCall := none }
  | none =>
    match s.inputs with
    | [] => .outcome (guarded s (.next s))
    | i :: rest => selectInput i { s with inputs := rest }

end Sys2Proof.Machine
end

