-- ==== Sys2Proof/Machine/Step.lean ====
section
/-! DEFINITION. One step of the machine, and the placement of an instruction where the next step takes it. -/

namespace Sys2Proof.Machine

/-- One step: the agent that State selects moves (R11, R13). -/
def step (s : State) : Host.Outcome State Fault Refusal :=
  match select s with
  | .run i t => exec i t
  | .outcome o => o

/-- The state whose next step runs the instruction with the table's bits `w`: a 32-bit word as the host's
next request, an 8-bit code as the driver call laid out next (log 11, log 12). -/
def State.withFetchWord (s : State) (nbits w : Nat) : State :=
  if nbits = 8 then { s with driverCall := some (BitVec.ofNat 8 w) }
  else { s with driverCall := none, inputs := .request (BitVec.ofNat 32 w) [] :: s.inputs }

end Sys2Proof.Machine
end

