-- ==== Sys2Proof/Safety.lean ====
section
/-! DEFINITION. What counts as a safe run and a good end (R141, R172), when a request may be issued, the
invariant of the machine, and the fields of the buffers, in the terms the statements use. -/

namespace Sys2Proof.Machine

/-- The host may issue a request: legal parameters (R7), no fault recorded (R141), no request holding (R12). -/
def State.Ready (s : State) : Prop :=
  s.params.ok = true ∧ s.fault = none ∧ s.busyOp = .none

/-- No environment step falls between the events of the next request (R13, log 5). -/
def State.Undisturbed (s : State) : Prop := s.sched = []

/-- A state of a good run (R141). -/
def State.good (s : State) : Bool := s.fault.isNone

/-- A run ends well (R172): no fault, nothing holding, and the host issues no further request. A refusal ends a
run without a last state, so no state of a run that was refused ends well (log 10). -/
def State.endsWell (s : State) : Bool :=
  s.fault.isNone && s.busyOp == .none && s.inputs.isEmpty

/-- A run ends quiescent (R172). -/
def State.endsQuiescent (s : State) : Bool :=
  s.endsWell && s.phase == .idle && !s.txBusy && s.txPartial.isEmpty && !s.rxGhost &&
    s.rxState == .active && s.rxLanded == 0

/-- A run that stops inside a hold is a hang, not an end (R168, R172). -/
def State.hangs (s : State) : Bool := s.busyOp != .none && s.inputs.isEmpty

/-- The 16-bit field of RXBUF at an offset, where both its bytes have been written (R44, R46). -/
def State.rxField (s : State) (off : Nat) : Option Half :=
  match s.rxbuf.read off, s.rxbuf.read (off + 1) with
  | some lo, some hi => some (le16 lo hi)
  | _, _ => none

/-- The 16-bit field of STAGE at an offset (R46). -/
def State.stageField (s : State) (off : Nat) : Half := le16 (s.stageByte off) (s.stageByte (off + 1))

/-- The frame image that stands in STAGE (R21). -/
def State.stageImage (s : State) : List Byte := (List.range s.params.frameSize).map s.stageByte

/-- The frame image that stands in TXBUF (R20). -/
def State.txImage (s : State) : List Byte := (List.range s.params.frameSize).map s.txByteAt

/-- The bytes of the RX_LAND steps among some environment steps, in order (R50). -/
def landedBytes : List EnvStep → List Byte
  | [] => []
  | .rxLand b :: es => b :: landedBytes es
  | .rxComplete :: es => landedBytes es
  | .ghostFire :: es => landedBytes es
  | .ghostDrop :: es => landedBytes es
  | .txByte :: es => landedBytes es
  | .timeout :: es => landedBytes es

/-- The state with another Restriction Mode in `d_rmode`, where a frame is in dispatch (R30, R120). -/
def State.withDispatchMode (m : RMode) (s : State) : State :=
  { s with phase := match s.phase with
      | .idle => .idle
      | .dispatching t l _ r => .dispatching t l m r }

/-- An outcome with its next state changed by `f`; a stop stays as it is. -/
def mapNext (f : State → State) : Host.Outcome State Fault Refusal → Host.Outcome State Fault Refusal
  | .next t => .next (f t)
  | .fault r => .fault r
  | .refused r => .refused r

/-- The invariant of the machine: what holds at reset and after every step. -/
structure State.Inv (s : State) : Prop where
  /-- The parameters are within R7. -/
  paramsOk : s.params.ok = true
  /-- The spaces are in canonical form, and nothing stands at an offset of `F` or more (R41). -/
  rxWf : s.rxbuf.wf = true
  rxWithin : s.rxbuf.within s.params.frameSize = true
  txWf : s.txbuf.wf = true
  txWithin : s.txbuf.within s.params.frameSize = true
  stageWf : s.stage.wf = true
  stageWithin : s.stage.within s.params.frameSize = true
  /-- `rx_landed` against `rx_state` (R22, R23). -/
  landedLe : s.rxLanded ≤ s.params.frameSize
  landedActive : s.rxState = .active → s.rxLanded < s.params.frameSize
  landedDone : s.rxState = .donePending ∨ s.rxState = .done → s.rxLanded = s.params.frameSize
  /-- Offsets `0..rx_landed-1` have been written (R50). -/
  landedWritten : ∀ off, off < s.rxLanded → (s.rxbuf.read off).isSome = true
  /-- `rx_ghost` is FALSE when `STALE_COMPLETION = DISCARDED` (R25). -/
  ghostAllowed : s.rxGhost = true → s.params.staleCompletion = .mayFire
  /-- `tx_sent` and `tx_partial` while a frame is leaving and while none is (R26, R34). -/
  txLeaving : s.txBusy = true → s.txSent < s.params.frameSize ∧ s.txPartial.length = s.txSent
  txAtRest : s.txBusy = false → s.txPartial = []
  /-- The companion has received whole frames of `F` bytes (R34). -/
  framesWhole : ∀ f, f ∈ s.txFrames → f.length = s.params.frameSize
  /-- Nothing has been received before the first arm since reset (R28, R160). -/
  unarmed : s.armedSinceReset = false →
    s.rxState = .idle ∧ s.rxLanded = 0 ∧ s.doneFlag = false ∧ s.rxGhost = false ∧ s.rxbuf = []
  /-- A wait holds only once reception has been armed (R132). -/
  waitArmed : s.busyOp.isWait = true → s.armedSinceReset = true
  /-- A frame in dispatch is not over-length (R86, R111). -/
  dispatchFits : ∀ t l m r, s.phase = .dispatching t l m r → l ≤ s.params.payloadCap
  /-- No driver call is laid out alone (log 11). -/
  noCall : s.driverCall = none

end Sys2Proof.Machine
end

