-- ==== Sys2Proof/Certificates/Slice0/Obligations.lean ====
section
/-! DEFINITION. The statements for the provers. Each docstring names the rule of spec/ it formalises; the model's
own choices (log entries) are named where a statement rests on one. -/

open Sys2Proof Sys2Proof.Machine Host

namespace Sys2Proof.Claims

/-- R71's list of illegal request words, over the word as a number: `OPSEL` is `w % 16`, bits 7:4 are
`w / 16 % 16`, `MOD` is `w / 256 % 4`, bits 15:10 are `w / 1024 % 64`, `ARG16` is `w / 65536`. -/
def illegalWord (w : Nat) : Prop :=
  w % 16 = 0 ∨ 8 ≤ w % 16 ∨ w / 16 % 16 ≠ 0 ∨ w / 1024 % 64 ≠ 0 ∨
    (w / 256 % 4 ≠ 0 ∧ (w % 16 = 1 ∨ w % 16 = 3 ∨ w % 16 = 4 ∨ w % 16 = 5 ∨ w % 16 = 6)) ∨
    (w % 16 = 2 ∧ w / 256 % 4 = 3) ∨
    (w % 16 = 7 ∧ 2 ≤ w / 256 % 4) ∨
    (w % 16 = 7 ∧ w / 256 % 2 = 0 ∧ w / 65536 ≠ 0) ∨
    (w / 65536 ≠ 0 ∧ (w % 16 = 1 ∨ w % 16 = 2 ∨ w % 16 = 3 ∨ w % 16 = 4 ∨ w % 16 = 6))

/-- The next step of `s` takes the input `i` and leaves `rest` (the queue of log 5): legal parameters, no fault, no
driver call laid out. -/
def takes (s : State) (i : Input) (rest : List Input) : Prop :=
  s.params.ok = true ∧ s.fault = none ∧ s.driverCall = none ∧ s.inputs = i :: rest

/-- Reception re-armed by `rearm_rx` (R110). -/
def rearmed (s : State) : State := s.armRx.setAnswered false

/-- POLL's case 3 and hand-off of a resolved frame: dropped where `len > N`, handed up otherwise (R111). -/
def handUp (rmode : RMode) (type : Half) (len : Nat) (rearm : Bool) (s : State) : State :=
  if s.params.payloadCap < len then
    if s.params.overlenRearm = true ∧ rearm = true then
      (rearmed (s.emit (.dropOverlen len))).withResult (some .noMsg)
    else (s.emit (.dropOverlen len)).withResult (some .noMsg)
  else
    ((s.setPhase (.dispatching type len rmode rearm)).emit (.dispatch type len rmode)).withResult
      (some .dispatched)

/-- POLL's decision from the codec's functions on the whole frame's fields (R83 to R86, R111): what the lazy,
event-by-event POLL must agree with. -/
def pollByCodec (rmode : RMode) (type len1 len2 valid : Half) (s : State) : State :=
  let arrived := s.params.frameSize - s.remaining
  let base := s.tookRemaining.chkClrDone
  if headerReady arrived = true ∧ s.answeredFast = false then
    if s.doneFlag = true then
      match resolveFull len1 valid len2 with
      | .len l => handUp rmode type l true base
      | .invalid => (rearmed (base.emit .dropInvalid)).withResult (some .noMsg)
    else if fastReady arrived len1 = true then
      handUp rmode type len1.toNat false (base.setAnswered true)
    else base.withResult (some .noMsg)
  else if s.doneFlag = true then
    match resolveCompleted s.answeredFast valid len2 with
    | some l => handUp rmode type l true (base.setAnswered false)
    | none => (rearmed (base.emit .dropCompleted)).withResult (some .noMsg)
  else base.withResult (some .noMsg)

/-- The completed frame of type `t` and length `l` taken by a wait (R132, R134): its completion consumed, `d_rearm`
set inside a dispatch, reception as it was. -/
def matched (t : Half) (l : Nat) (s : State) : State :=
  { s with
    doneFlag := false
    answeredFast := false
    phase := match s.phase with
      | .idle => .idle
      | .dispatching ty n m _ => .dispatching ty n m true
    hsState := .idle
    busyOp := .none
    trace := s.trace ++ [.chkDone true, .hsMatch t l]
    result := some (.matched t l) }

/-- A completed frame of type `t` and resolution `r` discarded by a wait (R132, R133): its completion consumed, reception
re-armed. -/
def discarded (t : Half) (r : Resolution) (s : State) : State :=
  { s with
    doneFlag := false
    answeredFast := false
    rxGhost := if s.rxState = .donePending ∧ s.params.staleCompletion = .mayFire then true else s.rxGhost
    rxState := .active
    rxLanded := 0
    armedSinceReset := true
    trace := s.trace ++ [.chkDone true, .hsDiscard t r, .armRx] }

/-- R7's bounds on the parameters. -/
def withinR7 (p : Params) : Prop :=
  12 + p.authTagSize ≤ p.frameSize ∧ p.frameSize ≤ 65535 ∧ p.typeUsbHid ≠ p.typeRadioHid ∧
    p.typeUsbHid ≠ p.typePlatDetails ∧ p.typeRadioHid ≠ p.typePlatDetails

/-- The next step is a POLL request. -/
def pollIsNext (s : State) : Prop :=
  ∃ w during rest rmode, s.inputs = .request w during :: rest ∧ decode (.request w) = .ok (.poll rmode)

/-- No DISPATCH event is among the events. -/
def noDispatch (l : List Event) : Prop := ∀ ty n m, Event.dispatch ty n m ∉ l

/-- A DISPATCH event with another Restriction Mode; every other event as it is. -/
def withMode (m : RMode) : Event → Event
  | .dispatch t l _ => .dispatch t l m
  | e => e

/-- The input is a TX_BYTE step or a legal host write of one byte of STAGE, for a frame of `n` bytes. -/
def txOrStageWrite (n : Nat) : Input → Prop
  | .env .txByte => True
  | .hostWrite .stage off _ => off < n
  | _ => False

end Sys2Proof.Claims

open Sys2Proof.Claims

/-! ## Encoding -/

/-- R75: the request word of every request in the syntax table. -/
def Obligations.RequestWordsAreTheTables : Prop :=
  encode .beginReceive = .request 0x00000001 ∧
  encode (.poll .unrestricted) = .request 0x00000002 ∧
  encode (.poll .onlyPingAndCancel) = .request 0x00000102 ∧
  encode (.poll .allButAdministrativeBundle) = .request 0x00000202 ∧
  encode .send = .request 0x00000003 ∧
  encode .armAndClearPending = .request 0x00000004 ∧
  (∀ t : Half, encode (.waitRxAndClear t) = .request (BitVec.ofNat 32 (t.toNat * 65536 + 5))) ∧
  encode .dmaCancel = .request 0x00000006 ∧
  encode (.dispatchReturn false 0) = .request 0x00000007 ∧
  (∀ n : Half, encode (.dispatchReturn true n) =
    .request ((BitVec.ofNat 32 n.toNat <<< 16) ||| 0x00000107))

/-- R67, R68, R74: words and codes written out from the spec decode to the instruction they stand for. -/
def Obligations.WrittenOutWordsDecode : Prop :=
  decodeTableWord 32 0x00000001 = some .beginReceive ∧
  decodeTableWord 32 0x00000102 = some (.poll .onlyPingAndCancel) ∧
  decodeTableWord 32 0x00000003 = some .send ∧
  decodeTableWord 32 0x00030005 = some (.waitRxAndClear 0x0003) ∧
  decodeTableWord 32 0x00050107 = some (.dispatchReturn true 5) ∧
  decodeTableWord 8 0x04 = some .chkClrDone

/-- Decode and encode agree: every well-formed instruction, with every operand, is what its code decodes to
(R66 to R70, R74). -/
def Obligations.DecodeUndoesEncode : Prop :=
  ∀ i : Instr, i.wf = true → decode (encode i) = .ok i

/-- An accepted code is the code of the instruction it decodes to, so each instruction has one word (R66, R72). -/
def Obligations.AcceptedCodesAreEncodings : Prop :=
  ∀ (c : Code) (i : Instr), decode c = .ok i → i.wf = true ∧ encode i = c

/-- R72: the decoder accepts exactly the words some row of the table selects and the field constraints admit,
and no word selects two rows. -/
def Obligations.DecoderFollowsTheTable : Prop :=
  (∀ w : Word, (∃ i, decode (.request w) = .ok i) ↔
    (∃ r ∈ requestRows, r.selects w = true) ∧ fieldConstraints w = true) ∧
  (∀ w : Word, ∀ r ∈ requestRows, ∀ r' ∈ requestRows, r.selects w = true → r'.selects w = true → r = r')

/-- R71, R143: the illegal words are exactly R71's list, and issuing one raises ILLEGAL_REQUEST(word) before any
other effect: of the spec's state only `fault` changes. `result` is the model's own (log 13). -/
def Obligations.IllegalWordsFault : Prop :=
  (∀ w : Word, illegalWord w.toNat ↔ ∀ i, decode (.request w) ≠ .ok i) ∧
  ∀ (s : State) (w : Word) (during : List (List EnvStep)) (rest : List Input),
    takes s (.request w during) rest → s.busyOp = .none → illegalWord w.toNat →
    step s = .next { s with
      inputs := rest, sched := during, result := none, fault := some (.illegalRequest w) }

/-! ## Codec -/

/-- R82: the serializer and the deserializer are inverse to each other. -/
def Obligations.FrameLayoutRoundTrips : Prop :=
  ∀ p : Params, p.ok = true →
    (∀ fr : Frame, fr.pay.length = p.payloadCap → deserializeFrame p (serializeFrame fr) = fr) ∧
    (∀ b : List Byte, b.length = p.frameSize → serializeFrame (deserializeFrame p b) = b)

/-- R92: both completion paths resolve a well-formed frame to `len2`, they differ on a frame with `len1 != 0` and
`valid = 0`, and every reply frame with `Lr <= N` is well formed. -/
def Obligations.CompletionPathsAgreeOnWellFormedFrames : Prop :=
  ∀ p : Params,
    (∀ fr : Frame, wellFormed p fr = true →
      resolveFull fr.len1 fr.valid fr.len2 = .len fr.len2.toNat ∧
      resolveCompleted false fr.valid fr.len2 = some fr.len2.toNat) ∧
    (∀ fr : Frame, fr.len1 ≠ 0 → fr.valid = 0 →
      resolveFull fr.len1 fr.valid fr.len2 = .len fr.len1.toNat ∧
      resolveCompleted false fr.valid fr.len2 = none) ∧
    (∀ (type lr : Half) (pay : List Byte), lr.toNat ≤ p.payloadCap →
      wellFormed p (frameFields type lr pay) = true)

/-- R89's corner case, derived: after the block's own `L <= N` check `n > M` cannot occur, so `cmd_check` accepts
exactly the messages of at least a header whose declared length is `L - 4`. -/
def Obligations.CommandCheckAcceptsExactLengths : Prop :=
  ∀ (p : Params) (l : Nat) (pay : List Byte), p.ok = true → l ≤ p.payloadCap →
    (cmdCheck p l pay ≠ .drop ↔ 4 ≤ l ∧ (fieldAt pay 2).toNat = l - 4)

/-! ## Driver primitives -/

/-- R94: `ARM_RX` restarts the transfer, and leaves a ghost exactly from DONE_PENDING with MAY_FIRE. The field
`result` is the model's own (log 13). -/
def Obligations.ArmRxRestartsTheTransfer : Prop :=
  ∀ s : State, s.params.ok = true → s.fault = none →
    exec .armRx s = .next { s with
      rxGhost := if s.rxState = .donePending ∧ s.params.staleCompletion = .mayFire then true else s.rxGhost
      rxState := .active
      rxLanded := 0
      armedSinceReset := true
      trace := s.trace ++ [.armRx]
      result := some .completed }

/-- R95's pseudocode: `ARM_TX` makes the channel busy with no byte sent. `result` is the model's own (log 13). -/
def Obligations.ArmTxStartsTheTransmission : Prop :=
  ∀ s : State, s.params.ok = true → s.fault = none →
    exec .armTx s = .next { s with
      txBusy := true, txSent := 0, trace := s.trace ++ [.armTx], result := some .completed }

/-- R96: GET_REMAINING is exact during a transfer, follows DMA_REMAINING_IDLE outside one (for every value the
free draw may take), never exceeds `F`, and writes nothing but the trace and the model's own counter and result
(log 3, log 13). -/
def Obligations.GetRemainingReportsTheCount : Prop :=
  ∀ s : State, s.params.ok = true → s.fault = none →
    ∃ rem, exec .getRemaining s = .next { s with
        trace := s.trace ++ [.remaining rem]
        result := some (.remaining rem)
        draws := if s.takesDraw = true then s.draws + 1 else s.draws } ∧
      rem ≤ s.params.frameSize ∧
      (s.rxState = .active ∨ s.rxState = .donePending → rem = s.params.frameSize - s.rxLanded) ∧
      (s.rxState = .idle ∨ s.rxState = .done →
        (s.params.remainingIdle = .zero → rem = 0) ∧
        (s.params.remainingIdle = .full → rem = s.params.frameSize))

/-- R97: CHK_CLR_DONE returns the flag and clears it, one event. `result` is the model's own (log 13). -/
def Obligations.ChkClrDoneTestsAndClears : Prop :=
  ∀ s : State, s.params.ok = true → s.fault = none →
    exec .chkClrDone s = .next { s with
      doneFlag := false, trace := s.trace ++ [.chkDone s.doneFlag], result := some (.flag s.doneFlag) }

/-- R98: CANCEL stops the receive transfer and nothing else. `result` is the model's own (log 13). -/
def Obligations.CancelStopsReception : Prop :=
  ∀ s : State, s.params.ok = true → s.fault = none →
    exec .cancel s = .next { s with
      rxGhost := if s.rxState = .donePending ∧ s.params.staleCompletion = .mayFire then true else s.rxGhost
      rxState := .idle
      trace := s.trace ++ [.cancelRx]
      result := some .completed }

/-! ## Environment steps -/

/-- R99: RX_LAND lands the byte at `rx_landed` while ACTIVE, and raises RX_OVERRUN otherwise. -/
def Obligations.LandedByteIsStoredOrOverruns : Prop :=
  ∀ (s : State) (b : Byte) (rest : List Input), takes s (.env (.rxLand b)) rest →
    (s.rxState = .active →
      step s = .next { s with
        inputs := rest
        rxbuf := s.rxbuf.write s.rxLanded b
        rxLanded := s.rxLanded + 1
        rxState := if s.rxLanded + 1 = s.params.frameSize then .donePending else .active }) ∧
    (s.rxState ≠ .active →
      step s = .next { s with inputs := rest, fault := some (.rxOverrun b s.rxState) })

/-- R100, R101: the completion and the ghost steps, where they are enabled. -/
def Obligations.CompletionAndGhostSteps : Prop :=
  ∀ (s : State) (rest : List Input),
    (takes s (.env .rxComplete) rest → s.rxState = .donePending →
      step s = .next { s with inputs := rest, doneFlag := true, rxState := .done }) ∧
    (takes s (.env .ghostFire) rest → s.rxGhost = true →
      step s = .next { s with inputs := rest, doneFlag := true, rxGhost := false }) ∧
    (takes s (.env .ghostDrop) rest → s.rxGhost = true →
      step s = .next { s with inputs := rest, rxGhost := false })

/-- R102: TX_BYTE moves the next byte of TXBUF, and the last one makes the frame whole. -/
def Obligations.TxByteMovesTheNextByte : Prop :=
  ∀ (s : State) (rest : List Input), takes s (.env .txByte) rest → s.txBusy = true →
    (s.txSent + 1 = s.params.frameSize →
      step s = .next { s with
        inputs := rest
        txBusy := false
        txSent := s.txSent + 1
        txFrames := s.txFrames ++ [s.txPartial ++ [s.txByteAt s.txSent]]
        txPartial := [] }) ∧
    (s.txSent + 1 ≠ s.params.frameSize →
      step s = .next { s with
        inputs := rest, txSent := s.txSent + 1, txPartial := s.txPartial ++ [s.txByteAt s.txSent] })

/-- R135: with NONDET a TIMEOUT ends a wait with reception left as it is; with NONE there is no such step.
`result` is the model's own (log 13). -/
def Obligations.TimeoutEndsAWaitOnlyWhenAllowed : Prop :=
  ∀ (s : State) (e : Half) (rest : List Input), takes s (.env .timeout) rest → s.busyOp = .wait e →
    (s.params.hsTimeout = .nondet →
      step s = .next { s with
        inputs := rest
        trace := s.trace ++ [.hsTimeout]
        hsState := .idle
        busyOp := .none
        result := some .timeout }) ∧
    (s.params.hsTimeout = .none → step s = .next { s with inputs := rest })

/-- R50, R51, R96, R99 and a part of R106: from a transfer just armed, whatever environment steps occur with no request
among them, the landed bytes stand in RXBUF in order from offset 0, every other byte is as it was, and the driver's
count is exact. -/
def Obligations.BytesLandInOrderAndAreCounted : Prop :=
  ∀ (s : State) (es : List EnvStep), s.params.ok = true → s.fault = none → s.rxState = .active →
    s.rxLanded = 0 → (s.runEnv es).fault = none →
    (s.runEnv es).rxLanded = (landedBytes es).length ∧
    (∀ off, off < (landedBytes es).length → (s.runEnv es).rxbuf.read off = (landedBytes es)[off]?) ∧
    (∀ off, (landedBytes es).length ≤ off → (s.runEnv es).rxbuf.read off = s.rxbuf.read off) ∧
    ((s.runEnv es).rxState.inTransfer = true →
      (s.runEnv es).remaining = s.params.frameSize - (landedBytes es).length)

/-- R58: a byte the count says has arrived keeps its value whatever the environment does. -/
def Obligations.ArrivedBytesAreRaceSafe : Prop :=
  ∀ (s : State) (es : List EnvStep) (off : Nat), s.rxState = .active ∨ s.rxState = .donePending →
    off < s.params.frameSize - s.remaining → (s.runEnv es).rxbuf.read off = s.rxbuf.read off

/-! ## BEGIN_RECEIVE and POLL -/

/-- R109, R110: BEGIN_RECEIVE arms reception, clears `answered_fast` and leaves `done_flag`, in either phase; issued
again with nothing landed between ("idempotent rearm") it changes nothing but the trace.
`result` is the model's own (log 13). -/
def Obligations.BeginReceiveArmsReception : Prop :=
  ∀ s : State, s.Ready → s.Undisturbed →
    ∃ t, exec .beginReceive s = .next t ∧
      t = { s with
        rxGhost := if s.rxState = .donePending ∧ s.params.staleCompletion = .mayFire then true else s.rxGhost
        rxState := .active
        rxLanded := 0
        armedSinceReset := true
        answeredFast := false
        trace := s.trace ++ [.armRx]
        result := some .completed } ∧
      exec .beginReceive t = .next { t with trace := t.trace ++ [.armRx] }

/-- R109 under every interleaving (R13): with any environment steps between its events BEGIN_RECEIVE answers a next
state with `armed_since_reset` set and one ARM_RX emitted, and TXBUF, STAGE, `phase` and `hs_state` are as before.
Unless one of those steps faulted, and so stopped it (R141, log 9), `answered_fast` is cleared and reception is armed.
What the channels' own steps move (`rx_landed`, `tx_busy`, `tx_sent`, `tx_frames`, `tx_partial`) is left open here:
BeginReceiveArmsReception says it for an undisturbed request. `result` is the model's own (log 13). -/
def Obligations.BeginReceiveUnderAnyInterleaving : Prop :=
  ∀ s : State, s.Ready →
    ∃ t, exec .beginReceive s = .next t ∧
      t.txbuf = s.txbuf ∧ t.stage = s.stage ∧ t.phase = s.phase ∧ t.hsState = s.hsState ∧
      t.busyOp = .none ∧ t.armedSinceReset = true ∧ t.trace = s.trace ++ [.armRx] ∧
      (t.fault = none → t.answeredFast = false ∧ t.result = some .completed ∧ t.rxState ≠ .idle)

/-- R144, R145, R151: POLL during a dispatch and DISPATCH_RETURN without one raise SEQUENCE_ERROR; POLL and
WAIT_RX_AND_CLEAR before any arm since reset raise NOT_ARMED_SINCE_RESET, after it; nothing else of the spec's state
changes. `result` is the model's own (log 13). -/
def Obligations.OutOfSequenceRequestsFault : Prop :=
  ∀ s : State, s.Ready →
    (∀ rmode, s.phase ≠ .idle → exec (.poll rmode) s = .next { s with
      fault := some (.sequenceError .poll s.phase), result := none }) ∧
    (∀ reply lr, (Instr.dispatchReturn reply lr).wf = true → s.phase = .idle →
      exec (.dispatchReturn reply lr) s = .next { s with
        fault := some (.sequenceError .dispatchReturn .idle), result := none }) ∧
    (s.armedSinceReset = false →
      (∀ rmode, s.phase = .idle → exec (.poll rmode) s = .next { s with
        fault := some (.notArmedSinceReset .poll), result := none }) ∧
      (∀ expected, exec (.waitRxAndClear expected) s = .next { s with
        fault := some (.notArmedSinceReset .waitRxAndClear), result := none }))

/-- R111 with R83 to R86: POLL, which reads the frame's fields lazily and event by event, decides what the codec's
functions decide on the whole frame, and leaves exactly that state. Undisturbed (log 5), the four fields landed.
`result` is the model's own (log 13). -/
def Obligations.PollDecidesByTheCodec : Prop :=
  ∀ (s : State) (rmode : RMode) (type len1 len2 valid : Half), s.Ready → s.Undisturbed →
    s.phase = .idle → s.armedSinceReset = true →
    s.rxField typeOff = some type → s.rxField len1Off = some len1 →
    s.rxField (len2Off s.params) = some len2 → s.rxField (validOff s.params) = some valid →
    exec (.poll rmode) s = .next (pollByCodec rmode type len1 len2 valid s)

/-- R111 case 1b: with only the header landed, the fast path hands the frame up on `payload_length_1` once the
arrived bytes cover it, without re-arming, and does nothing before. `result` is the model's own (log 13). -/
def Obligations.FastPathNeedsOnlyTheHeader : Prop :=
  ∀ (s : State) (rmode : RMode) (type len1 : Half), s.Ready → s.Undisturbed →
    s.phase = .idle → s.armedSinceReset = true → s.answeredFast = false → s.doneFlag = false →
    4 ≤ s.params.frameSize - s.remaining →
    s.rxField typeOff = some type → s.rxField len1Off = some len1 →
    exec (.poll rmode) s = .next
      (if len1 ≠ 0 ∧ 4 + len1.toNat ≤ s.params.frameSize - s.remaining then
        handUp rmode type len1.toNat false (s.tookRemaining.chkClrDone.setAnswered true)
      else s.tookRemaining.chkClrDone.withResult (some .noMsg))

/-- R111: with no completion raised and either less than a header arrived or the frame already answered, POLL
reads nothing and returns NO_MSG. `result` is the model's own (log 13). -/
def Obligations.PollWithNothingToDoReturnsNoMsg : Prop :=
  ∀ (s : State) (rmode : RMode), s.Ready → s.Undisturbed → s.phase = .idle → s.armedSinceReset = true →
    s.doneFlag = false → (s.params.frameSize - s.remaining < 4 ∨ s.answeredFast = true) →
    exec (.poll rmode) s = .next (s.tookRemaining.chkClrDone.withResult (some .noMsg))

/-- R44, R148: a POLL that reads `payload_length_1` where no transfer has written it raises UNINIT_READ at that
offset, after the two driver calls (R151). `result` is the model's own (log 13). -/
def Obligations.PollOfUnwrittenHeaderFaults : Prop :=
  ∀ (s : State) (rmode : RMode), s.Ready → s.Undisturbed → s.phase = .idle → s.armedSinceReset = true →
    s.answeredFast = false → 4 ≤ s.params.frameSize - s.remaining → s.rxbuf.read 2 = none →
    exec (.poll rmode) s = .next { s.tookRemaining.chkClrDone with
      fault := some (.uninitRead 2), result := none }

/-- R111's race, one interleaving of R13: `arrived` is read before the flag, so a frame whose last byte lands and whose
completion is raised between the two events is taken by case 1a, with `rearm` set.
`result` is the model's own (log 13). -/
def Obligations.CompletionBetweenCountAndFlagIsTaken : Prop :=
  ∀ (s : State) (rmode : RMode) (b : Byte) (type len1 : Half), s.Ready → s.phase = .idle →
    s.armedSinceReset = true → s.answeredFast = false → s.doneFlag = false → s.rxState = .active →
    s.rxLanded + 1 = s.params.frameSize → s.sched = [[.rxLand b, .rxComplete]] →
    s.rxField typeOff = some type → s.rxField len1Off = some len1 → len1 ≠ 0 →
    len1.toNat ≤ s.params.payloadCap →
    exec (.poll rmode) s = .next { s with
      sched := []
      rxbuf := s.rxbuf.write s.rxLanded b
      rxLanded := s.params.frameSize
      rxState := .done
      phase := .dispatching type len1.toNat rmode true
      trace := s.trace ++ [.remaining 1, .chkDone true, .dispatch type len1.toNat rmode]
      result := some .dispatched }

/-- R122: on a frame with `payload_length_1 = 0` and `payload_valid_flag = 0`, the POLL that consumes the
completion re-arms reception and dispatches nothing, and a POLL before it neither re-arms nor dispatches.
`result` is the model's own (log 13). -/
def Obligations.InvalidFrameIsDroppedAndRearmed : Prop :=
  ∀ (s : State) (rmode : RMode), s.Ready → s.Undisturbed → s.phase = .idle → s.armedSinceReset = true →
    s.rxField len1Off = some 0 → s.rxField (validOff s.params) = some 0 →
    ∃ t, exec (.poll rmode) s = .next t ∧ t.fault = none ∧ t.phase = .idle ∧ t.result = some .noMsg ∧
      (s.doneFlag = true → t.rxState = .active ∧ t.rxLanded = 0 ∧ t.doneFlag = false ∧
        t.answeredFast = false ∧
        t.trace = s.trace ++ [.remaining s.remaining, .chkDone true,
          if 4 ≤ s.params.frameSize - s.remaining ∧ s.answeredFast = false then .dropInvalid
          else .dropCompleted, .armRx]) ∧
      (s.doneFlag = false → t.rxState = s.rxState ∧ t.rxLanded = s.rxLanded ∧
        t.answeredFast = s.answeredFast ∧
        t.trace = s.trace ++ [.remaining s.remaining, .chkDone false])

/-- A part of R112, under every interleaving: while `answered_fast` is set no POLL dispatches; and no step at all does,
or clears the marker without having armed reception anew or taken an awaited reply. R112's own exceptions stay outside:
after a re-arm of the host, or a ghost's completion, the same bytes may be handed up again. -/
def Obligations.AnsweredFrameIsNotHandedUpAgain : Prop :=
  (∀ (s t : State) (rmode : RMode), s.answeredFast = true → exec (.poll rmode) s = .next t →
    t.phase = s.phase ∧ ∃ new, t.trace = s.trace ++ new ∧ noDispatch new) ∧
  (∀ s t : State, s.answeredFast = true → step s = .next t →
    ∃ new, t.trace = s.trace ++ new ∧ noDispatch new ∧
      (t.answeredFast = false → Event.armRx ∈ new ∨ ∃ ty l, Event.hsMatch ty l ∈ new))

/-- R111, "never blocks", and R146, under every interleaving: POLL answers a next state in which nothing holds, it
writes neither TXBUF, STAGE nor `hs_state`, and REMAINING_OUT_OF_RANGE is unreachable under the driver's contract.
`result` is the model's own (log 13). -/
def Obligations.PollNeverBlocks : Prop :=
  ∀ (s : State) (rmode : RMode), s.Ready →
    ∃ t, exec (.poll rmode) s = .next t ∧ t.busyOp = .none ∧ t.txbuf = s.txbuf ∧ t.stage = s.stage ∧
      t.hsState = s.hsState ∧ (∀ rem, t.fault ≠ some (.remainingOutOfRange rem)) ∧
      (t.fault = none → t.result = some .noMsg ∨ t.result = some .dispatched)

/-- R120, under every interleaving (R13): POLL's Restriction Mode reaches `d_rmode` and the DISPATCH event, and nothing
in the block depends on it. Two POLLs that differ in it leave states that agree but for `d_rmode` and that event; and
every step that is no POLL (a request, the turn of a hold, a driver call, a host access, an environment step) does from
a state with another `d_rmode` exactly what it does, with that `d_rmode`. A POLL during a dispatch faults with the phase
as its info (OutOfSequenceRequestsFault). -/
def Obligations.RestrictionModeIsPassedThrough : Prop :=
  (∀ (s : State) (m m' : RMode), s.Ready →
    ∃ t t' new, exec (.poll m) s = .next t ∧ exec (.poll m') s = .next t' ∧
      t.trace = s.trace ++ new ∧ t'.trace = s.trace ++ new.map (withMode m') ∧
      (∀ ty l r, Event.dispatch ty l r ∈ new → r = m) ∧
      { t with phase := .idle, trace := [] } = { t' with phase := .idle, trace := [] } ∧
      (s.phase = .idle →
        (t.phase = .idle ∧ t'.phase = .idle) ∨
        ∃ ty l r, t.phase = .dispatching ty l m r ∧ t'.phase = .dispatching ty l m' r)) ∧
  (∀ (s : State) (m : RMode), ¬ pollIsNext s →
    step (s.withDispatchMode m) = mapNext (State.withDispatchMode m) (step s))

/-- R115: after an over-length frame was dropped through case 1b on a transfer whose completion is consumed, every
POLL does nothing, and the next byte the companion sends faults RX_OVERRUN. `result` is the model's own (log 13). -/
def Obligations.OverLengthStallPersists : Prop :=
  ∀ (s : State) (rmode : RMode) (b : Byte), s.Ready → s.Undisturbed → s.phase = .idle →
    s.armedSinceReset = true → s.rxState = .done → s.doneFlag = false → s.answeredFast = true →
    ∃ t, exec (.poll rmode) s = .next t ∧
      t = { s with
        draws := t.draws
        result := some .noMsg
        trace := s.trace ++ [.remaining s.remaining, .chkDone false] } ∧
      t.envStep (.rxLand b) = { t with fault := some (.rxOverrun b .done) }

/-- R114 with R61, R80, R99, R100: a well-formed frame the companion sends into a transfer armed by BEGIN_RECEIVE
is handed up with its own type and length `len2`, whatever the driver reports while idle (every draw).
`result` is the model's own (log 13). -/
def Obligations.WellFormedFrameIsHandedUp : Prop :=
  ∀ (s : State) (rmode : RMode) (fr : Frame), s.Ready → s.Undisturbed → s.phase = .idle →
    fr.pay.length = s.params.payloadCap → wellFormed s.params fr = true →
    ∃ t u, exec .beginReceive s = .next t ∧
      exec (.poll rmode) (t.runEnv ((serializeFrame fr).map .rxLand ++ [.rxComplete])) = .next u ∧
      u.phase = .dispatching fr.type fr.len2.toNat rmode true ∧ u.result = some .dispatched ∧
      u.fault = none ∧ u.doneFlag = false ∧
      ∀ off, off < s.params.frameSize → u.rxbuf.read off = (serializeFrame fr)[off]?

/-! ## DISPATCH_RETURN and SEND -/

/-- R149, R150, R151: SEND and a DISPATCH_RETURN with a reply raise TX_BUSY while a frame is leaving, else BAD_TX_FRAME
(for `Lr > N`, or when STAGE breaks the precondition of `send`), both before any effect.
`result` is the model's own (log 13). -/
def Obligations.TransmitFaultsComeBeforeAnyEffect : Prop :=
  ∀ s : State, s.Ready →
    (∀ (lr dType : Half) (dLen : Nat) (dRmode : RMode) (dRearm : Bool),
      s.phase = .dispatching dType dLen dRmode dRearm →
      (s.txBusy = true → exec (.dispatchReturn true lr) s = .next { s with
        fault := some (.txBusy s.txSent), result := none }) ∧
      (s.txBusy = false → s.params.payloadCap < lr.toNat →
        exec (.dispatchReturn true lr) s = .next { s with
          fault := some (.badTxFrame lr lr 0x0001), result := none })) ∧
    (s.txBusy = true → exec .send s = .next { s with fault := some (.txBusy s.txSent), result := none }) ∧
    (s.Undisturbed → s.txBusy = false →
      txFrameOk s.params (s.stageField len1Off) (s.stageField (len2Off s.params))
        (s.stageField (validOff s.params)) = false →
      exec .send s = .next { s with
        fault := some (.badTxFrame (s.stageField len1Off) (s.stageField (len2Off s.params))
          (s.stageField (validOff s.params)))
        result := none })

/-- R119 with no reply: the dispatch ends and reception is re-armed exactly as `d_rearm` says.
`result` is the model's own (log 13). -/
def Obligations.ReturnWithoutReplyRearmsAsMarked : Prop :=
  ∀ (s : State) (dType : Half) (dLen : Nat) (dRmode : RMode), s.Ready → s.Undisturbed →
    (s.phase = .dispatching dType dLen dRmode true →
      exec (.dispatchReturn false 0) s = .next { s with
        phase := .idle
        rxGhost := if s.rxState = .donePending ∧ s.params.staleCompletion = .mayFire then true else s.rxGhost
        rxState := .active
        rxLanded := 0
        armedSinceReset := true
        answeredFast := false
        trace := s.trace ++ [.ret false 0, .armRx]
        result := some .completed }) ∧
    (s.phase = .dispatching dType dLen dRmode false →
      exec (.dispatchReturn false 0) s = .next { s with
        phase := .idle, trace := s.trace ++ [.ret false 0], result := some .completed })

/-- R119 with a reply: the four frame fields go into STAGE and no other byte of it, TXBUF becomes STAGE, the channel
is armed, reception is re-armed as `d_rearm` says, and nothing else changes. `result` is the model's own (log 13). -/
def Obligations.ReturnWithReplyFramesAndSends : Prop :=
  ∀ (s : State) (lr dType : Half) (dLen : Nat) (dRmode : RMode) (dRearm : Bool), s.Ready → s.Undisturbed →
    s.phase = .dispatching dType dLen dRmode dRearm → s.txBusy = false → lr.toNat ≤ s.params.payloadCap →
    ∃ t, exec (.dispatchReturn true lr) s = .next t ∧
      t = { (if dRearm = true then rearmed s else s) with
        phase := .idle
        stage := t.stage
        txbuf := t.txbuf
        txBusy := true
        txSent := 0
        trace := s.trace ++ [.ret true lr.toNat] ++ (if dRearm = true then [.armRx] else []) ++ [.armTx]
        result := some .completed } ∧
      t.stageField typeOff = dType ∧ t.stageField len1Off = lr ∧
      t.stageField (len2Off s.params) = lr ∧ t.stageField (validOff s.params) = 0x0001 ∧
      (∀ off, 4 ≤ off → off < s.params.frameSize - 4 ∨ s.params.frameSize ≤ off →
        t.stage.read off = s.stage.read off) ∧
      (∀ off, off < s.params.frameSize → t.txByteAt off = t.stageByte off) ∧
      (∀ off, s.params.frameSize ≤ off → t.txbuf.read off = s.txbuf.read off)

/-- R128, under every interleaving (R13): the frame a DISPATCH_RETURN transmits has `Lr <= N` in both length fields,
REPLY_VALID in its flag and the received frame's type, is well formed, and resolves to `Lr` on either path. -/
def Obligations.TransmittedRepliesAreWellFormed : Prop :=
  ∀ (s t : State) (lr dType : Half) (dLen : Nat) (dRmode : RMode) (dRearm : Bool),
    s.phase = .dispatching dType dLen dRmode dRearm →
    exec (.dispatchReturn true lr) s = .next t → t.fault = none →
    let fr := deserializeFrame s.params t.txImage
    lr.toNat ≤ s.params.payloadCap ∧ fr.len1 = lr ∧ fr.len2 = lr ∧ fr.valid = 0x0001 ∧ fr.type = dType ∧
      wellFormed s.params fr = true ∧
      resolveFull fr.len1 fr.valid fr.len2 = .len lr.toNat ∧
      resolveCompleted false fr.valid fr.len2 = some lr.toNat

/-- R125, R126: an accepted SEND copies all `F` bytes of STAGE to TXBUF, arms the channel, records the request of a
round trip, and changes nothing else. `result` is the model's own (log 13). -/
def Obligations.SendCopiesStageAndArms : Prop :=
  ∀ s : State, s.Ready → s.Undisturbed → s.txBusy = false →
    txFrameOk s.params (s.stageField len1Off) (s.stageField (len2Off s.params))
      (s.stageField (validOff s.params)) = true →
    ∃ t, exec .send s = .next t ∧
      t = { s with
        txbuf := t.txbuf
        txBusy := true
        txSent := 0
        hsState := if s.hsState = .armed then .reqSent else s.hsState
        trace := s.trace ++ [.armTx]
        result := some .completed } ∧
      (∀ off, off < s.params.frameSize → t.txByteAt off = s.stageByte off) ∧
      (∀ off, s.params.frameSize ≤ off → t.txbuf.read off = s.txbuf.read off)

/-- R127: the frame the companion receives is the content of STAGE at the time of the SEND or DISPATCH_RETURN that
armed it, whatever the host writes into STAGE while the bytes leave. For a SEND that is STAGE as it stood; for a reply
it is the four fields of R90 around the payload bytes as they stood. -/
def Obligations.SendDeliversTheStagedFrame : Prop :=
  ∀ (s t : State) (i : Instr) (is : List Input), s.Inv → s.Undisturbed → s.busyOp = .none → s.txBusy = false →
    (i = .send ∨ ∃ lr, i = .dispatchReturn true lr) → exec i s = .next t → t.fault = none →
    (∀ x ∈ is, txOrStageWrite s.params.frameSize x) →
    is.count (.env .txByte) = s.params.frameSize →
    (∃ u, Sys2Proof.core.run is.length { t with inputs := is } = .next u ∧
      u.txFrames = s.txFrames ++ [t.stageImage] ∧ u.txBusy = false ∧ u.fault = none) ∧
    (i = .send → t.stageImage = s.stageImage) ∧
    (∀ (lr dType : Half) (dLen : Nat) (dRmode : RMode) (dRearm : Bool),
      i = .dispatchReturn true lr → s.phase = .dispatching dType dLen dRmode dRearm →
      t.stageImage =
        serializeFrame (frameFields dType lr ((s.stageImage.drop payOff).take s.params.payloadCap)))

/-! ## Handshake -/

/-- R130: from a quiescent state ARM_AND_CLEAR_PENDING does not hold: it arms reception, discards a completion not
yet consumed and clears `answered_fast`. `result` is the model's own (log 13). -/
def Obligations.ArmAndClearPendingCompletes : Prop :=
  ∀ s : State, s.Ready → s.Undisturbed → s.quiescent = true →
    exec .armAndClearPending s = .next { s with
      rxState := .active
      rxLanded := 0
      armedSinceReset := true
      doneFlag := false
      answeredFast := false
      hsState := .armed
      trace := s.trace ++ [.armRx]
      result := some .completed }

/-- R130, R131: while a transfer is part-way ARM_AND_CLEAR_PENDING holds and changes nothing but `busy_op`; the
block's turn in the hold changes nothing until `quiescent()`, and then completes the request (log 6).
`result` is the model's own (log 13). -/
def Obligations.ArmAndClearPendingHolds : Prop :=
  (∀ s : State, s.Ready → s.Undisturbed → s.quiescent = false →
    exec .armAndClearPending s = .next { s with busyOp := .acpHold, result := none }) ∧
  (∀ (s : State) (rest : List Input), takes s (.resume []) rest → s.busyOp = .acpHold →
    (s.quiescent = false → step s = .next { s with inputs := rest, sched := [] }) ∧
    (s.quiescent = true → step s = .next { s with
      inputs := rest
      sched := []
      rxState := .active
      rxLanded := 0
      armedSinceReset := true
      doneFlag := false
      answeredFast := false
      busyOp := .none
      hsState := .armed
      trace := s.trace ++ [.armRx]
      result := some .completed }))

/-- R131's consequence, under every interleaving: ARM_AND_CLEAR_PENDING never leaves a stale completion behind, when
it is issued or when it is resumed. -/
def Obligations.ArmAndClearPendingLeavesNoGhost : Prop :=
  (∀ s t : State, s.rxGhost = false → exec .armAndClearPending s = .next t → t.rxGhost = false) ∧
  (∀ (s t : State) (during : List (List EnvStep)) (rest : List Input),
    takes s (.resume during) rest → s.busyOp = .acpHold → s.rxGhost = false → step s = .next t →
    t.rxGhost = false)

/-- R132, R134: with the completion raised and a whole frame of the expected type and a length within `N` landed,
WAIT_RX_AND_CLEAR returns it, both where it is issued and where it has been holding and takes its turn (log 6): the
reply stays in RXBUF unarmed, and inside a dispatch `d_rearm` is set. `result` is the model's own (log 13). -/
def Obligations.WaitReturnsTheAwaitedFrame : Prop :=
  ∀ (s : State) (expected len1 len2 valid : Half) (l : Nat), s.doneFlag = true →
    s.rxField typeOff = some expected → s.rxField len1Off = some len1 →
    s.rxField (len2Off s.params) = some len2 → s.rxField (validOff s.params) = some valid →
    resolveAny len1 valid len2 = .len l → l ≤ s.params.payloadCap →
    (s.Ready → s.Undisturbed → s.armedSinceReset = true →
      exec (.waitRxAndClear expected) s = .next (matched expected l s)) ∧
    (∀ rest, takes s (.resume []) rest → s.busyOp = .wait expected →
      step s = .next (matched expected l { s with inputs := rest, sched := [] }))

/-- R132, R133: every other completed frame is discarded and reception re-armed, and the wait goes on, both where it is
issued and where it has been holding and takes its turn (log 6). `result` is the model's own (log 13). -/
def Obligations.WaitDiscardsAnyOtherFrame : Prop :=
  ∀ (s : State) (expected type len1 len2 valid : Half), s.doneFlag = true →
    s.rxField typeOff = some type → s.rxField len1Off = some len1 →
    s.rxField (len2Off s.params) = some len2 → s.rxField (validOff s.params) = some valid →
    (type ≠ expected ∨ resolveAny len1 valid len2 = .invalid ∨
      ∃ l, resolveAny len1 valid len2 = .len l ∧ s.params.payloadCap < l) →
    (s.Ready → s.Undisturbed → s.armedSinceReset = true →
      exec (.waitRxAndClear expected) s = .next { discarded type (resolveAny len1 valid len2) s with
        hsState := .wait, busyOp := .wait expected, result := none }) ∧
    (∀ rest, takes s (.resume []) rest → s.busyOp = .wait expected →
      step s = .next (discarded type (resolveAny len1 valid len2) { s with inputs := rest, sched := [] }))

/-- R132: with no completion raised WAIT_RX_AND_CLEAR holds; its spin checks are no events, and the block's turn in
the hold changes nothing until `done_flag` (log 6). `result` is the model's own (log 13). -/
def Obligations.WaitHoldsUntilACompletion : Prop :=
  (∀ (s : State) (expected : Half), s.Ready → s.Undisturbed → s.armedSinceReset = true → s.doneFlag = false →
    exec (.waitRxAndClear expected) s = .next { s with
      hsState := .wait, busyOp := .wait expected, result := none }) ∧
  (∀ (s : State) (expected : Half) (during : List (List EnvStep)) (rest : List Input),
    takes s (.resume during) rest → s.busyOp = .wait expected → s.doneFlag = false →
    step s = .next { s with inputs := rest, sched := during })

/-- R138, under every interleaving: while a round trip waits no step dispatches a frame, and the host's requests are
refused (R12, R152). -/
def Obligations.NoDispatchWhileWaiting : Prop :=
  ∀ (s : State) (e : Half), s.busyOp = .wait e → s.driverCall = none →
    (∀ t, step s = .next t → ∃ new, t.trace = s.trace ++ new ∧ noDispatch new) ∧
    (∀ (i : Instr), s.params.ok = true → s.fault = none → i.isPrimitive = false →
      exec i s = .refused .hostStepDuringHold)

/-- R132, R139: with HS_TIMEOUT = NONE, a wait with reception unarmed (cancelled or never armed, or a transfer over and
its flag consumed), no completion raised and no ghost pending never ends: every step keeps it holding. -/
def Obligations.UnarmedWaitNeverEnds : Prop :=
  ∀ (s t : State) (e : Half), s.params.hsTimeout = .none → s.busyOp = .wait e →
    s.rxState = .idle ∨ s.rxState = .done → s.doneFlag = false → s.rxGhost = false → s.driverCall = none →
    step s = .next t →
    t.params = s.params ∧ t.busyOp = .wait e ∧ t.rxState = s.rxState ∧ t.doneFlag = false ∧ t.rxGhost = false ∧
      t.driverCall = none

/-- R129, under every interleaving: among the instructions only ARM_AND_CLEAR_PENDING, SEND and WAIT_RX_AND_CLEAR
move `hs_state`, each only as the table says. -/
def Obligations.HandshakeStateMovesAsTheTable : Prop :=
  ∀ (i : Instr) (s t : State), exec i s = .next t →
    (t.hsState = s.hsState) ∨
    (i = .armAndClearPending ∧ t.hsState = .armed) ∨
    (i = .send ∧ s.hsState = .armed ∧ t.hsState = .reqSent) ∨
    ((∃ e, i = .waitRxAndClear e) ∧ (t.hsState = .wait ∨ t.hsState = .idle))

/-- R136: DMA_CANCEL is the driver's `cancel()`, in either phase, under every interleaving.
`result` is the model's own (log 13). -/
def Obligations.DmaCancelStopsReception : Prop :=
  ∀ s : State, s.Ready →
    exec .dmaCancel s = .next { s with
      rxGhost := if s.rxState = .donePending ∧ s.params.staleCompletion = .mayFire then true else s.rxGhost
      rxState := .idle
      trace := s.trace ++ [.cancelRx]
      result := some .completed }

/-! ## The host, the step, faults and reset -/

/-- R41, R42, R44, R152: the host's accesses: what is granted, what faults, what is refused. The outcome of a refusal is
the model's form of R152's mark (log 10). Where an access is at `F` or more and also to a space that is not granted,
which of the two refusals names it is the model's choice, no rule of the spec (log 19). `result` is the model's own
(log 13). -/
def Obligations.HostAccessRights : Prop :=
  ∀ (s : State) (off : Nat) (b : Byte) (rest : List Input), s.busyOp = .none →
    (takes s (.hostRead .stage off) rest → off < s.params.frameSize →
      step s = .next { s with inputs := rest, result := some (.byte (s.stageByte off)) }) ∧
    (takes s (.hostRead .rxbuf off) rest → off < s.params.frameSize →
      step s = .next (match s.rxbuf.read off with
        | some v => { s with inputs := rest, result := some (.byte v) }
        | none => { s with inputs := rest, fault := some (.uninitRead off) })) ∧
    (takes s (.hostWrite .stage off b) rest → off < s.params.frameSize →
      step s = .next { s with inputs := rest, stage := s.stage.write off b }) ∧
    (takes s (.hostRead .txbuf off) rest → off < s.params.frameSize →
      step s = .refused (.hostAccessNotGranted .txbuf)) ∧
    (∀ space, space ≠ .stage → takes s (.hostWrite space off b) rest → off < s.params.frameSize →
      step s = .refused (.hostAccessNotGranted space)) ∧
    (∀ space, s.params.frameSize ≤ off →
      (takes s (.hostRead space off) rest → step s = .refused (.offsetOutOfRange off)) ∧
      (takes s (.hostWrite space off b) rest → step s = .refused (.offsetOutOfRange off)))

/-- A step runs the decoded instruction: a request word that decodes is executed in the state without the input, with
its own bursts as the schedule (log 5), and a driver call laid out is executed in the state without it (log 11). -/
def Obligations.StepRunsTheDecodedInstruction : Prop :=
  (∀ (s : State) (w : Word) (during : List (List EnvStep)) (rest : List Input) (i : Instr),
    s.driverCall = none → s.inputs = .request w during :: rest → decode (.request w) = .ok i →
    step s = exec i { s with inputs := rest, sched := during }) ∧
  (∀ (s : State) (c : Byte) (i : Instr), s.driverCall = some c → decode (.primitive c) = .ok i →
    step s = exec i { s with driverCall := none })

/-- R156: every request is available to the host whenever it may issue one: under every interleaving none is refused, and
each answers a next state. That state may carry a fault the request or a step inside it raised, from which no agent
goes on (R141, log 9). The ill-formed term DISPATCH_RETURN none with a length, which no word decodes to, answers as
log 17 says. -/
def Obligations.EveryRequestAnswersWhenReady : Prop :=
  ∀ (i : Instr) (s : State), s.Ready → ∃ t, exec i s = .next t ∧ t.params = s.params

/-- R141, R154: from a faulted state no agent takes a step: every step and every meaning stops with the record, and
every environment step leaves the state as it is. R7, R152: with parameters outside R7 every step and every meaning is
refused. The outcomes are the model's form of the two stops (log 9, log 10), and that the refusal comes first where both
apply is its choice (log 19). -/
def Obligations.FaultStopsEveryAgent : Prop :=
  (∀ (s : State) (r : FaultRecord), s.fault = some r →
    (∀ es, s.runEnv es = s) ∧
    (withinR7 s.params → (∀ i, exec i s = .fault (.halted r)) ∧ step s = .fault (.halted r))) ∧
  (∀ s : State, ¬ withinR7 s.params →
    (∀ i, exec i s = .refused .parametersOutOfBounds) ∧ step s = .refused .parametersOutOfBounds)

/-- R42 for the block's own writers, under every interleaving: among the instructions TXBUF changes by SEND and by
DISPATCH_RETURN with a reply only, STAGE by DISPATCH_RETURN with a reply only, and RXBUF by none: where no byte lands
between an instruction's events, RXBUF is as before. The host's writes of STAGE are HostAccessRights. -/
def Obligations.BuffersHaveOneWriter : Prop :=
  ∀ (i : Instr) (s t : State), exec i s = .next t →
    ((i ≠ .send ∧ ∀ lr, i ≠ .dispatchReturn true lr) → t.txbuf = s.txbuf) ∧
    ((∀ lr, i ≠ .dispatchReturn true lr) → t.stage = s.stage) ∧
    ((∀ burst ∈ s.sched, landedBytes burst = []) → t.rxbuf = s.rxbuf)

/-- R33, R6, under every interleaving: a step never takes back an event of the trace, and never changes a parameter. -/
def Obligations.TraceOnlyGrows : Prop :=
  ∀ s t : State, step s = .next t → t.params = s.params ∧ ∃ new, t.trace = s.trace ++ new

/-- R35, R36, R37, R142: the views: every field of TRSTATUS with its codes, its reserved bits 0; TRFAULT the fault's
code, 0 when there is none, with bits 15:8 zero; and RX_LANDED equal to `rx_landed`, which the invariant keeps within
`F`. -/
def Obligations.StatusViewsShowTheState : Prop :=
  ∀ s : State,
    s.trstatus.extractLsb' 0 2 =
      (match s.rxState with | .idle => 0 | .active => 1 | .donePending => 2 | .done => 3) ∧
    s.trstatus.getLsbD 2 = s.doneFlag ∧ s.trstatus.getLsbD 3 = s.rxGhost ∧
    s.trstatus.getLsbD 4 = s.answeredFast ∧
    s.trstatus.getLsbD 5 = (match s.phase with | .idle => false | .dispatching _ _ _ _ => true) ∧
    s.trstatus.getLsbD 6 = (match s.phase with | .idle => false | .dispatching _ _ _ r => r) ∧
    s.trstatus.getLsbD 7 = s.txBusy ∧
    s.trstatus.extractLsb' 8 2 =
      (match s.hsState with | .idle => 0 | .armed => 1 | .reqSent => 2 | .wait => 3) ∧
    s.trstatus.extractLsb' 10 2 = (match s.busyOp with | .none => 0 | .acpHold => 1 | .wait _ => 2) ∧
    s.trstatus.getLsbD 12 = s.armedSinceReset ∧ s.trstatus.getLsbD 13 = s.fault.isSome ∧
    s.trstatus.extractLsb' 14 2 = 0 ∧
    s.trfault.toNat = (match s.fault with
      | none => 0
      | some (.illegalRequest _) => 1
      | some (.sequenceError _ _) => 2
      | some (.notArmedSinceReset _) => 3
      | some (.remainingOutOfRange _) => 4
      | some (.rxOverrun _ _) => 5
      | some (.uninitRead _) => 6
      | some (.txBusy _) => 7
      | some (.badTxFrame _ _ _) => 8) ∧
    (s.params.ok = true → s.rxLanded ≤ s.params.frameSize → s.rxLandedView.toNat = s.rxLanded)

/-- R159: what reset leaves, for every parameters: the table's values, a fault at every read of RXBUF, and the free
draws of STAGE and TXBUF (log 2). -/
def Obligations.ResetLeavesTheTable : Prop :=
  ∀ p : Params, let s := State.resetWith p
    (∀ off, s.readByte .rxbuf off = none) ∧
    (∀ off, s.readByte .txbuf off = some (Config.txbufDraw off)) ∧
    (∀ off, s.readByte .stage off = some (Config.stageDraw off)) ∧
    s.rxState = .idle ∧ s.rxLanded = 0 ∧ s.doneFlag = false ∧ s.rxGhost = false ∧ s.txBusy = false ∧
    s.txSent = 0 ∧ s.answeredFast = false ∧ s.armedSinceReset = false ∧ s.busyOp = .none ∧
    s.phase = .idle ∧ s.hsState = .idle ∧ s.fault = none ∧ s.trace = [] ∧ s.txFrames = [] ∧
    s.txPartial = [] ∧ s.trstatus = 0 ∧ s.trfault = 0 ∧ s.rxLandedView = 0

/-- The invariant holds at reset, for every legal parameters. -/
def Obligations.ResetMeetsTheInvariant : Prop :=
  ∀ p : Params, p.ok = true → (State.resetWith p).Inv

/-- Every step keeps the invariant, from every state that meets it, under every interleaving. -/
def Obligations.StepKeepsTheInvariant : Prop :=
  ∀ s t : State, s.Inv → step s = .next t → t.Inv
end

