-- ==== Sys2Proof/Laws/Memory.lean ====
section
/-! SUPPORT. The laws of one byte-addressed space: read after write, and that a write keeps the canonical form
and the bound on offsets. -/

namespace Sys2Proof.Machine

@[simp] theorem Memory.read_nil (off : Nat) : Memory.read [] off = none := rfl

@[simp] theorem Memory.wf_nil : Memory.wf [] = true := rfl

@[simp] theorem Memory.within_nil (n : Nat) : Memory.within [] n = true := rfl

/-- What a write does to every read: the written offset holds the byte, every other offset what it held. -/
theorem Memory.read_write (m : Memory) (off : Nat) (v : Byte) (a : Nat) :
    (m.write off v).read a = if a = off then some v else m.read a := by
  induction m with
  | nil => simp [Memory.write, Memory.read, eq_comm]
  | cons c rest ih =>
    obtain ⟨x, b⟩ := c
    simp only [Memory.write]
    split
    · rename_i h
      by_cases ha : a = off
      · subst ha; simp [Memory.read]
      · simp [Memory.read, ha, Ne.symm ha]
    · split
      · rename_i h1 h2
        subst h2
        by_cases ha : a = off
        · subst ha; simp [Memory.read]
        · simp [Memory.read, ha, Ne.symm ha]
      · rename_i h1 h2
        simp only [Memory.read, ih]
        by_cases hx : x = a
        · subst hx; simp [Ne.symm h2]
        · simp [hx]

@[simp] theorem Memory.read_write_same (m : Memory) (off : Nat) (v : Byte) :
    (m.write off v).read off = some v := by simp [Memory.read_write]

theorem Memory.read_write_other (m : Memory) {off a : Nat} (v : Byte) (h : a ≠ off) :
    (m.write off v).read a = m.read a := by simp [Memory.read_write, h]

/-- Membership in the cells a write leaves. -/
theorem Memory.mem_write {m : Memory} {off : Nat} {v : Byte} {c : Host.Cell}
    (h : c ∈ m.write off v) : c = (off, v) ∨ c ∈ m := by
  induction m with
  | nil => simpa [Memory.write] using h
  | cons d rest ih =>
    obtain ⟨x, b⟩ := d
    simp only [Memory.write] at h
    split at h
    · simpa using h
    · split at h
      · rcases List.mem_cons.mp h with h | h
        · exact .inl h
        · exact .inr (List.mem_cons_of_mem _ h)
      · rcases List.mem_cons.mp h with h | h
        · exact .inr (by simp [h])
        · rcases ih h with h | h
          · exact .inl h
          · exact .inr (List.mem_cons_of_mem _ h)

/-- The canonical form of a space with a first cell, in terms of the cells after it. -/
theorem Memory.wf_cons_iff (a : Nat) (b : Byte) (m : Memory) :
    Memory.wf ((a, b) :: m) = true ↔ (∀ c ∈ m, a < c.1) ∧ m.wf = true := by
  induction m generalizing a b with
  | nil => simp [Memory.wf]
  | cons d rest ih =>
    obtain ⟨x, y⟩ := d
    simp only [Memory.wf, Bool.and_eq_true, decide_eq_true_eq]
    constructor
    · rintro ⟨hax, hr⟩
      refine ⟨?_, hr⟩
      intro c hc
      rcases List.mem_cons.mp hc with hc | hc
      · simpa [hc] using hax
      · exact Nat.lt_trans hax (((ih x y).mp hr).1 c hc)
    · rintro ⟨hall, hr⟩
      exact ⟨hall (x, y) (by simp), hr⟩

/-- A write keeps the canonical form. -/
theorem Memory.wf_write (m : Memory) (off : Nat) (v : Byte) (h : m.wf = true) :
    (m.write off v).wf = true := by
  induction m with
  | nil => rfl
  | cons c rest ih =>
    obtain ⟨x, b⟩ := c
    have hx := (Memory.wf_cons_iff x b rest).mp h
    simp only [Memory.write]
    split
    · rename_i hlt
      rw [Memory.wf_cons_iff]
      refine ⟨?_, h⟩
      intro d hd
      rcases List.mem_cons.mp hd with hd | hd
      · simpa [hd] using hlt
      · exact Nat.lt_trans hlt (hx.1 d hd)
    · split
      · rename_i h1 h2
        subst h2
        exact (Memory.wf_cons_iff off v rest).mpr hx
      · rename_i h1 h2
        rw [Memory.wf_cons_iff]
        refine ⟨?_, ih hx.2⟩
        intro d hd
        rcases Memory.mem_write hd with hd | hd
        · subst hd; simp only; omega
        · exact hx.1 d hd

/-- A write below `n` keeps every listed offset below `n`. -/
theorem Memory.within_write (m : Memory) (off : Nat) (v : Byte) (n : Nat) (h : m.within n = true)
    (hoff : off < n) : (m.write off v).within n = true := by
  simp only [Memory.within, List.all_eq_true, decide_eq_true_eq] at *
  intro c hc
  rcases Memory.mem_write hc with hc | hc
  · simpa [hc] using hoff
  · exact h c hc

/-- A write unwrites nothing. -/
theorem Memory.isSome_read_write (m : Memory) (off : Nat) (v : Byte) (a : Nat)
    (h : (m.read a).isSome = true) : ((m.write off v).read a).isSome = true := by
  rw [Memory.read_write]; split <;> simp_all

end Sys2Proof.Machine
end

