-- ==== Sys2Proof/Laws/State.lean ====
section
/-! SUPPORT. One lemma per field per named update of State, each true by rfl, so that no later proof unfolds a
record update. -/

namespace Sys2Proof.Machine

variable (s : State)

/-! ### State.emit -/

@[simp] theorem State.emit_params (e : Event) : (s.emit e).params = s.params := rfl
@[simp] theorem State.emit_rxbuf (e : Event) : (s.emit e).rxbuf = s.rxbuf := rfl
@[simp] theorem State.emit_txbuf (e : Event) : (s.emit e).txbuf = s.txbuf := rfl
@[simp] theorem State.emit_stage (e : Event) : (s.emit e).stage = s.stage := rfl
@[simp] theorem State.emit_rxState (e : Event) : (s.emit e).rxState = s.rxState := rfl
@[simp] theorem State.emit_rxLanded (e : Event) : (s.emit e).rxLanded = s.rxLanded := rfl
@[simp] theorem State.emit_doneFlag (e : Event) : (s.emit e).doneFlag = s.doneFlag := rfl
@[simp] theorem State.emit_rxGhost (e : Event) : (s.emit e).rxGhost = s.rxGhost := rfl
@[simp] theorem State.emit_txBusy (e : Event) : (s.emit e).txBusy = s.txBusy := rfl
@[simp] theorem State.emit_txSent (e : Event) : (s.emit e).txSent = s.txSent := rfl
@[simp] theorem State.emit_answeredFast (e : Event) : (s.emit e).answeredFast = s.answeredFast := rfl
@[simp] theorem State.emit_armedSinceReset (e : Event) : (s.emit e).armedSinceReset = s.armedSinceReset := rfl
@[simp] theorem State.emit_busyOp (e : Event) : (s.emit e).busyOp = s.busyOp := rfl
@[simp] theorem State.emit_phase (e : Event) : (s.emit e).phase = s.phase := rfl
@[simp] theorem State.emit_hsState (e : Event) : (s.emit e).hsState = s.hsState := rfl
@[simp] theorem State.emit_fault (e : Event) : (s.emit e).fault = s.fault := rfl
@[simp] theorem State.emit_trace (e : Event) : (s.emit e).trace = s.trace ++ [e] := rfl
@[simp] theorem State.emit_txFrames (e : Event) : (s.emit e).txFrames = s.txFrames := rfl
@[simp] theorem State.emit_txPartial (e : Event) : (s.emit e).txPartial = s.txPartial := rfl
@[simp] theorem State.emit_draws (e : Event) : (s.emit e).draws = s.draws := rfl
@[simp] theorem State.emit_result (e : Event) : (s.emit e).result = s.result := rfl
@[simp] theorem State.emit_sched (e : Event) : (s.emit e).sched = s.sched := rfl
@[simp] theorem State.emit_inputs (e : Event) : (s.emit e).inputs = s.inputs := rfl
@[simp] theorem State.emit_driverCall (e : Event) : (s.emit e).driverCall = s.driverCall := rfl

/-! ### State.raise -/

@[simp] theorem State.raise_params (r : FaultRecord) : (s.raise r).params = s.params := rfl
@[simp] theorem State.raise_rxbuf (r : FaultRecord) : (s.raise r).rxbuf = s.rxbuf := rfl
@[simp] theorem State.raise_txbuf (r : FaultRecord) : (s.raise r).txbuf = s.txbuf := rfl
@[simp] theorem State.raise_stage (r : FaultRecord) : (s.raise r).stage = s.stage := rfl
@[simp] theorem State.raise_rxState (r : FaultRecord) : (s.raise r).rxState = s.rxState := rfl
@[simp] theorem State.raise_rxLanded (r : FaultRecord) : (s.raise r).rxLanded = s.rxLanded := rfl
@[simp] theorem State.raise_doneFlag (r : FaultRecord) : (s.raise r).doneFlag = s.doneFlag := rfl
@[simp] theorem State.raise_rxGhost (r : FaultRecord) : (s.raise r).rxGhost = s.rxGhost := rfl
@[simp] theorem State.raise_txBusy (r : FaultRecord) : (s.raise r).txBusy = s.txBusy := rfl
@[simp] theorem State.raise_txSent (r : FaultRecord) : (s.raise r).txSent = s.txSent := rfl
@[simp] theorem State.raise_answeredFast (r : FaultRecord) : (s.raise r).answeredFast = s.answeredFast := rfl
@[simp] theorem State.raise_armedSinceReset (r : FaultRecord) : (s.raise r).armedSinceReset = s.armedSinceReset := rfl
@[simp] theorem State.raise_busyOp (r : FaultRecord) : (s.raise r).busyOp = s.busyOp := rfl
@[simp] theorem State.raise_phase (r : FaultRecord) : (s.raise r).phase = s.phase := rfl
@[simp] theorem State.raise_hsState (r : FaultRecord) : (s.raise r).hsState = s.hsState := rfl
@[simp] theorem State.raise_fault (r : FaultRecord) : (s.raise r).fault = some r := rfl
@[simp] theorem State.raise_trace (r : FaultRecord) : (s.raise r).trace = s.trace := rfl
@[simp] theorem State.raise_txFrames (r : FaultRecord) : (s.raise r).txFrames = s.txFrames := rfl
@[simp] theorem State.raise_txPartial (r : FaultRecord) : (s.raise r).txPartial = s.txPartial := rfl
@[simp] theorem State.raise_draws (r : FaultRecord) : (s.raise r).draws = s.draws := rfl
@[simp] theorem State.raise_result (r : FaultRecord) : (s.raise r).result = s.result := rfl
@[simp] theorem State.raise_sched (r : FaultRecord) : (s.raise r).sched = s.sched := rfl
@[simp] theorem State.raise_inputs (r : FaultRecord) : (s.raise r).inputs = s.inputs := rfl
@[simp] theorem State.raise_driverCall (r : FaultRecord) : (s.raise r).driverCall = s.driverCall := rfl

/-! ### State.withResult -/

@[simp] theorem State.withResult_params (r : Option Result) : (s.withResult r).params = s.params := rfl
@[simp] theorem State.withResult_rxbuf (r : Option Result) : (s.withResult r).rxbuf = s.rxbuf := rfl
@[simp] theorem State.withResult_txbuf (r : Option Result) : (s.withResult r).txbuf = s.txbuf := rfl
@[simp] theorem State.withResult_stage (r : Option Result) : (s.withResult r).stage = s.stage := rfl
@[simp] theorem State.withResult_rxState (r : Option Result) : (s.withResult r).rxState = s.rxState := rfl
@[simp] theorem State.withResult_rxLanded (r : Option Result) : (s.withResult r).rxLanded = s.rxLanded := rfl
@[simp] theorem State.withResult_doneFlag (r : Option Result) : (s.withResult r).doneFlag = s.doneFlag := rfl
@[simp] theorem State.withResult_rxGhost (r : Option Result) : (s.withResult r).rxGhost = s.rxGhost := rfl
@[simp] theorem State.withResult_txBusy (r : Option Result) : (s.withResult r).txBusy = s.txBusy := rfl
@[simp] theorem State.withResult_txSent (r : Option Result) : (s.withResult r).txSent = s.txSent := rfl
@[simp] theorem State.withResult_answeredFast (r : Option Result) : (s.withResult r).answeredFast = s.answeredFast := rfl
@[simp] theorem State.withResult_armedSinceReset (r : Option Result) : (s.withResult r).armedSinceReset = s.armedSinceReset := rfl
@[simp] theorem State.withResult_busyOp (r : Option Result) : (s.withResult r).busyOp = s.busyOp := rfl
@[simp] theorem State.withResult_phase (r : Option Result) : (s.withResult r).phase = s.phase := rfl
@[simp] theorem State.withResult_hsState (r : Option Result) : (s.withResult r).hsState = s.hsState := rfl
@[simp] theorem State.withResult_fault (r : Option Result) : (s.withResult r).fault = s.fault := rfl
@[simp] theorem State.withResult_trace (r : Option Result) : (s.withResult r).trace = s.trace := rfl
@[simp] theorem State.withResult_txFrames (r : Option Result) : (s.withResult r).txFrames = s.txFrames := rfl
@[simp] theorem State.withResult_txPartial (r : Option Result) : (s.withResult r).txPartial = s.txPartial := rfl
@[simp] theorem State.withResult_draws (r : Option Result) : (s.withResult r).draws = s.draws := rfl
@[simp] theorem State.withResult_result (r : Option Result) : (s.withResult r).result = r := rfl
@[simp] theorem State.withResult_sched (r : Option Result) : (s.withResult r).sched = s.sched := rfl
@[simp] theorem State.withResult_inputs (r : Option Result) : (s.withResult r).inputs = s.inputs := rfl
@[simp] theorem State.withResult_driverCall (r : Option Result) : (s.withResult r).driverCall = s.driverCall := rfl

/-! ### State.setAnswered -/

@[simp] theorem State.setAnswered_params (b : Bool) : (s.setAnswered b).params = s.params := rfl
@[simp] theorem State.setAnswered_rxbuf (b : Bool) : (s.setAnswered b).rxbuf = s.rxbuf := rfl
@[simp] theorem State.setAnswered_txbuf (b : Bool) : (s.setAnswered b).txbuf = s.txbuf := rfl
@[simp] theorem State.setAnswered_stage (b : Bool) : (s.setAnswered b).stage = s.stage := rfl
@[simp] theorem State.setAnswered_rxState (b : Bool) : (s.setAnswered b).rxState = s.rxState := rfl
@[simp] theorem State.setAnswered_rxLanded (b : Bool) : (s.setAnswered b).rxLanded = s.rxLanded := rfl
@[simp] theorem State.setAnswered_doneFlag (b : Bool) : (s.setAnswered b).doneFlag = s.doneFlag := rfl
@[simp] theorem State.setAnswered_rxGhost (b : Bool) : (s.setAnswered b).rxGhost = s.rxGhost := rfl
@[simp] theorem State.setAnswered_txBusy (b : Bool) : (s.setAnswered b).txBusy = s.txBusy := rfl
@[simp] theorem State.setAnswered_txSent (b : Bool) : (s.setAnswered b).txSent = s.txSent := rfl
@[simp] theorem State.setAnswered_answeredFast (b : Bool) : (s.setAnswered b).answeredFast = b := rfl
@[simp] theorem State.setAnswered_armedSinceReset (b : Bool) : (s.setAnswered b).armedSinceReset = s.armedSinceReset := rfl
@[simp] theorem State.setAnswered_busyOp (b : Bool) : (s.setAnswered b).busyOp = s.busyOp := rfl
@[simp] theorem State.setAnswered_phase (b : Bool) : (s.setAnswered b).phase = s.phase := rfl
@[simp] theorem State.setAnswered_hsState (b : Bool) : (s.setAnswered b).hsState = s.hsState := rfl
@[simp] theorem State.setAnswered_fault (b : Bool) : (s.setAnswered b).fault = s.fault := rfl
@[simp] theorem State.setAnswered_trace (b : Bool) : (s.setAnswered b).trace = s.trace := rfl
@[simp] theorem State.setAnswered_txFrames (b : Bool) : (s.setAnswered b).txFrames = s.txFrames := rfl
@[simp] theorem State.setAnswered_txPartial (b : Bool) : (s.setAnswered b).txPartial = s.txPartial := rfl
@[simp] theorem State.setAnswered_draws (b : Bool) : (s.setAnswered b).draws = s.draws := rfl
@[simp] theorem State.setAnswered_result (b : Bool) : (s.setAnswered b).result = s.result := rfl
@[simp] theorem State.setAnswered_sched (b : Bool) : (s.setAnswered b).sched = s.sched := rfl
@[simp] theorem State.setAnswered_inputs (b : Bool) : (s.setAnswered b).inputs = s.inputs := rfl
@[simp] theorem State.setAnswered_driverCall (b : Bool) : (s.setAnswered b).driverCall = s.driverCall := rfl

/-! ### State.setPhase -/

@[simp] theorem State.setPhase_params (p : Phase) : (s.setPhase p).params = s.params := rfl
@[simp] theorem State.setPhase_rxbuf (p : Phase) : (s.setPhase p).rxbuf = s.rxbuf := rfl
@[simp] theorem State.setPhase_txbuf (p : Phase) : (s.setPhase p).txbuf = s.txbuf := rfl
@[simp] theorem State.setPhase_stage (p : Phase) : (s.setPhase p).stage = s.stage := rfl
@[simp] theorem State.setPhase_rxState (p : Phase) : (s.setPhase p).rxState = s.rxState := rfl
@[simp] theorem State.setPhase_rxLanded (p : Phase) : (s.setPhase p).rxLanded = s.rxLanded := rfl
@[simp] theorem State.setPhase_doneFlag (p : Phase) : (s.setPhase p).doneFlag = s.doneFlag := rfl
@[simp] theorem State.setPhase_rxGhost (p : Phase) : (s.setPhase p).rxGhost = s.rxGhost := rfl
@[simp] theorem State.setPhase_txBusy (p : Phase) : (s.setPhase p).txBusy = s.txBusy := rfl
@[simp] theorem State.setPhase_txSent (p : Phase) : (s.setPhase p).txSent = s.txSent := rfl
@[simp] theorem State.setPhase_answeredFast (p : Phase) : (s.setPhase p).answeredFast = s.answeredFast := rfl
@[simp] theorem State.setPhase_armedSinceReset (p : Phase) : (s.setPhase p).armedSinceReset = s.armedSinceReset := rfl
@[simp] theorem State.setPhase_busyOp (p : Phase) : (s.setPhase p).busyOp = s.busyOp := rfl
@[simp] theorem State.setPhase_phase (p : Phase) : (s.setPhase p).phase = p := rfl
@[simp] theorem State.setPhase_hsState (p : Phase) : (s.setPhase p).hsState = s.hsState := rfl
@[simp] theorem State.setPhase_fault (p : Phase) : (s.setPhase p).fault = s.fault := rfl
@[simp] theorem State.setPhase_trace (p : Phase) : (s.setPhase p).trace = s.trace := rfl
@[simp] theorem State.setPhase_txFrames (p : Phase) : (s.setPhase p).txFrames = s.txFrames := rfl
@[simp] theorem State.setPhase_txPartial (p : Phase) : (s.setPhase p).txPartial = s.txPartial := rfl
@[simp] theorem State.setPhase_draws (p : Phase) : (s.setPhase p).draws = s.draws := rfl
@[simp] theorem State.setPhase_result (p : Phase) : (s.setPhase p).result = s.result := rfl
@[simp] theorem State.setPhase_sched (p : Phase) : (s.setPhase p).sched = s.sched := rfl
@[simp] theorem State.setPhase_inputs (p : Phase) : (s.setPhase p).inputs = s.inputs := rfl
@[simp] theorem State.setPhase_driverCall (p : Phase) : (s.setPhase p).driverCall = s.driverCall := rfl

/-! ### State.setHs -/

@[simp] theorem State.setHs_params (h : HsState) : (s.setHs h).params = s.params := rfl
@[simp] theorem State.setHs_rxbuf (h : HsState) : (s.setHs h).rxbuf = s.rxbuf := rfl
@[simp] theorem State.setHs_txbuf (h : HsState) : (s.setHs h).txbuf = s.txbuf := rfl
@[simp] theorem State.setHs_stage (h : HsState) : (s.setHs h).stage = s.stage := rfl
@[simp] theorem State.setHs_rxState (h : HsState) : (s.setHs h).rxState = s.rxState := rfl
@[simp] theorem State.setHs_rxLanded (h : HsState) : (s.setHs h).rxLanded = s.rxLanded := rfl
@[simp] theorem State.setHs_doneFlag (h : HsState) : (s.setHs h).doneFlag = s.doneFlag := rfl
@[simp] theorem State.setHs_rxGhost (h : HsState) : (s.setHs h).rxGhost = s.rxGhost := rfl
@[simp] theorem State.setHs_txBusy (h : HsState) : (s.setHs h).txBusy = s.txBusy := rfl
@[simp] theorem State.setHs_txSent (h : HsState) : (s.setHs h).txSent = s.txSent := rfl
@[simp] theorem State.setHs_answeredFast (h : HsState) : (s.setHs h).answeredFast = s.answeredFast := rfl
@[simp] theorem State.setHs_armedSinceReset (h : HsState) : (s.setHs h).armedSinceReset = s.armedSinceReset := rfl
@[simp] theorem State.setHs_busyOp (h : HsState) : (s.setHs h).busyOp = s.busyOp := rfl
@[simp] theorem State.setHs_phase (h : HsState) : (s.setHs h).phase = s.phase := rfl
@[simp] theorem State.setHs_hsState (h : HsState) : (s.setHs h).hsState = h := rfl
@[simp] theorem State.setHs_fault (h : HsState) : (s.setHs h).fault = s.fault := rfl
@[simp] theorem State.setHs_trace (h : HsState) : (s.setHs h).trace = s.trace := rfl
@[simp] theorem State.setHs_txFrames (h : HsState) : (s.setHs h).txFrames = s.txFrames := rfl
@[simp] theorem State.setHs_txPartial (h : HsState) : (s.setHs h).txPartial = s.txPartial := rfl
@[simp] theorem State.setHs_draws (h : HsState) : (s.setHs h).draws = s.draws := rfl
@[simp] theorem State.setHs_result (h : HsState) : (s.setHs h).result = s.result := rfl
@[simp] theorem State.setHs_sched (h : HsState) : (s.setHs h).sched = s.sched := rfl
@[simp] theorem State.setHs_inputs (h : HsState) : (s.setHs h).inputs = s.inputs := rfl
@[simp] theorem State.setHs_driverCall (h : HsState) : (s.setHs h).driverCall = s.driverCall := rfl

/-! ### State.setBusy -/

@[simp] theorem State.setBusy_params (b : BusyOp) : (s.setBusy b).params = s.params := rfl
@[simp] theorem State.setBusy_rxbuf (b : BusyOp) : (s.setBusy b).rxbuf = s.rxbuf := rfl
@[simp] theorem State.setBusy_txbuf (b : BusyOp) : (s.setBusy b).txbuf = s.txbuf := rfl
@[simp] theorem State.setBusy_stage (b : BusyOp) : (s.setBusy b).stage = s.stage := rfl
@[simp] theorem State.setBusy_rxState (b : BusyOp) : (s.setBusy b).rxState = s.rxState := rfl
@[simp] theorem State.setBusy_rxLanded (b : BusyOp) : (s.setBusy b).rxLanded = s.rxLanded := rfl
@[simp] theorem State.setBusy_doneFlag (b : BusyOp) : (s.setBusy b).doneFlag = s.doneFlag := rfl
@[simp] theorem State.setBusy_rxGhost (b : BusyOp) : (s.setBusy b).rxGhost = s.rxGhost := rfl
@[simp] theorem State.setBusy_txBusy (b : BusyOp) : (s.setBusy b).txBusy = s.txBusy := rfl
@[simp] theorem State.setBusy_txSent (b : BusyOp) : (s.setBusy b).txSent = s.txSent := rfl
@[simp] theorem State.setBusy_answeredFast (b : BusyOp) : (s.setBusy b).answeredFast = s.answeredFast := rfl
@[simp] theorem State.setBusy_armedSinceReset (b : BusyOp) : (s.setBusy b).armedSinceReset = s.armedSinceReset := rfl
@[simp] theorem State.setBusy_busyOp (b : BusyOp) : (s.setBusy b).busyOp = b := rfl
@[simp] theorem State.setBusy_phase (b : BusyOp) : (s.setBusy b).phase = s.phase := rfl
@[simp] theorem State.setBusy_hsState (b : BusyOp) : (s.setBusy b).hsState = s.hsState := rfl
@[simp] theorem State.setBusy_fault (b : BusyOp) : (s.setBusy b).fault = s.fault := rfl
@[simp] theorem State.setBusy_trace (b : BusyOp) : (s.setBusy b).trace = s.trace := rfl
@[simp] theorem State.setBusy_txFrames (b : BusyOp) : (s.setBusy b).txFrames = s.txFrames := rfl
@[simp] theorem State.setBusy_txPartial (b : BusyOp) : (s.setBusy b).txPartial = s.txPartial := rfl
@[simp] theorem State.setBusy_draws (b : BusyOp) : (s.setBusy b).draws = s.draws := rfl
@[simp] theorem State.setBusy_result (b : BusyOp) : (s.setBusy b).result = s.result := rfl
@[simp] theorem State.setBusy_sched (b : BusyOp) : (s.setBusy b).sched = s.sched := rfl
@[simp] theorem State.setBusy_inputs (b : BusyOp) : (s.setBusy b).inputs = s.inputs := rfl
@[simp] theorem State.setBusy_driverCall (b : BusyOp) : (s.setBusy b).driverCall = s.driverCall := rfl

/-! ### State.armRx -/

@[simp] theorem State.armRx_params : (s.armRx).params = s.params := rfl
@[simp] theorem State.armRx_rxbuf : (s.armRx).rxbuf = s.rxbuf := rfl
@[simp] theorem State.armRx_txbuf : (s.armRx).txbuf = s.txbuf := rfl
@[simp] theorem State.armRx_stage : (s.armRx).stage = s.stage := rfl
@[simp] theorem State.armRx_rxState : (s.armRx).rxState = .active := rfl
@[simp] theorem State.armRx_rxLanded : (s.armRx).rxLanded = 0 := rfl
@[simp] theorem State.armRx_doneFlag : (s.armRx).doneFlag = s.doneFlag := rfl
@[simp] theorem State.armRx_rxGhost : (s.armRx).rxGhost = (s.rxGhost || s.leavesGhost) := rfl
@[simp] theorem State.armRx_txBusy : (s.armRx).txBusy = s.txBusy := rfl
@[simp] theorem State.armRx_txSent : (s.armRx).txSent = s.txSent := rfl
@[simp] theorem State.armRx_answeredFast : (s.armRx).answeredFast = s.answeredFast := rfl
@[simp] theorem State.armRx_armedSinceReset : (s.armRx).armedSinceReset = true := rfl
@[simp] theorem State.armRx_busyOp : (s.armRx).busyOp = s.busyOp := rfl
@[simp] theorem State.armRx_phase : (s.armRx).phase = s.phase := rfl
@[simp] theorem State.armRx_hsState : (s.armRx).hsState = s.hsState := rfl
@[simp] theorem State.armRx_fault : (s.armRx).fault = s.fault := rfl
@[simp] theorem State.armRx_trace : (s.armRx).trace = s.trace ++ [.armRx] := rfl
@[simp] theorem State.armRx_txFrames : (s.armRx).txFrames = s.txFrames := rfl
@[simp] theorem State.armRx_txPartial : (s.armRx).txPartial = s.txPartial := rfl
@[simp] theorem State.armRx_draws : (s.armRx).draws = s.draws := rfl
@[simp] theorem State.armRx_result : (s.armRx).result = s.result := rfl
@[simp] theorem State.armRx_sched : (s.armRx).sched = s.sched := rfl
@[simp] theorem State.armRx_inputs : (s.armRx).inputs = s.inputs := rfl
@[simp] theorem State.armRx_driverCall : (s.armRx).driverCall = s.driverCall := rfl

/-! ### State.armTx -/

@[simp] theorem State.armTx_params : (s.armTx).params = s.params := rfl
@[simp] theorem State.armTx_rxbuf : (s.armTx).rxbuf = s.rxbuf := rfl
@[simp] theorem State.armTx_txbuf : (s.armTx).txbuf = s.txbuf := rfl
@[simp] theorem State.armTx_stage : (s.armTx).stage = s.stage := rfl
@[simp] theorem State.armTx_rxState : (s.armTx).rxState = s.rxState := rfl
@[simp] theorem State.armTx_rxLanded : (s.armTx).rxLanded = s.rxLanded := rfl
@[simp] theorem State.armTx_doneFlag : (s.armTx).doneFlag = s.doneFlag := rfl
@[simp] theorem State.armTx_rxGhost : (s.armTx).rxGhost = s.rxGhost := rfl
@[simp] theorem State.armTx_txBusy : (s.armTx).txBusy = true := rfl
@[simp] theorem State.armTx_txSent : (s.armTx).txSent = 0 := rfl
@[simp] theorem State.armTx_answeredFast : (s.armTx).answeredFast = s.answeredFast := rfl
@[simp] theorem State.armTx_armedSinceReset : (s.armTx).armedSinceReset = s.armedSinceReset := rfl
@[simp] theorem State.armTx_busyOp : (s.armTx).busyOp = s.busyOp := rfl
@[simp] theorem State.armTx_phase : (s.armTx).phase = s.phase := rfl
@[simp] theorem State.armTx_hsState : (s.armTx).hsState = s.hsState := rfl
@[simp] theorem State.armTx_fault : (s.armTx).fault = s.fault := rfl
@[simp] theorem State.armTx_trace : (s.armTx).trace = s.trace ++ [.armTx] := rfl
@[simp] theorem State.armTx_txFrames : (s.armTx).txFrames = s.txFrames := rfl
@[simp] theorem State.armTx_txPartial : (s.armTx).txPartial = s.txPartial := rfl
@[simp] theorem State.armTx_draws : (s.armTx).draws = s.draws := rfl
@[simp] theorem State.armTx_result : (s.armTx).result = s.result := rfl
@[simp] theorem State.armTx_sched : (s.armTx).sched = s.sched := rfl
@[simp] theorem State.armTx_inputs : (s.armTx).inputs = s.inputs := rfl
@[simp] theorem State.armTx_driverCall : (s.armTx).driverCall = s.driverCall := rfl

/-! ### State.tookRemaining -/

@[simp] theorem State.tookRemaining_params : (s.tookRemaining).params = s.params := rfl
@[simp] theorem State.tookRemaining_rxbuf : (s.tookRemaining).rxbuf = s.rxbuf := rfl
@[simp] theorem State.tookRemaining_txbuf : (s.tookRemaining).txbuf = s.txbuf := rfl
@[simp] theorem State.tookRemaining_stage : (s.tookRemaining).stage = s.stage := rfl
@[simp] theorem State.tookRemaining_rxState : (s.tookRemaining).rxState = s.rxState := rfl
@[simp] theorem State.tookRemaining_rxLanded : (s.tookRemaining).rxLanded = s.rxLanded := rfl
@[simp] theorem State.tookRemaining_doneFlag : (s.tookRemaining).doneFlag = s.doneFlag := rfl
@[simp] theorem State.tookRemaining_rxGhost : (s.tookRemaining).rxGhost = s.rxGhost := rfl
@[simp] theorem State.tookRemaining_txBusy : (s.tookRemaining).txBusy = s.txBusy := rfl
@[simp] theorem State.tookRemaining_txSent : (s.tookRemaining).txSent = s.txSent := rfl
@[simp] theorem State.tookRemaining_answeredFast : (s.tookRemaining).answeredFast = s.answeredFast := rfl
@[simp] theorem State.tookRemaining_armedSinceReset : (s.tookRemaining).armedSinceReset = s.armedSinceReset := rfl
@[simp] theorem State.tookRemaining_busyOp : (s.tookRemaining).busyOp = s.busyOp := rfl
@[simp] theorem State.tookRemaining_phase : (s.tookRemaining).phase = s.phase := rfl
@[simp] theorem State.tookRemaining_hsState : (s.tookRemaining).hsState = s.hsState := rfl
@[simp] theorem State.tookRemaining_fault : (s.tookRemaining).fault = s.fault := rfl
@[simp] theorem State.tookRemaining_trace : (s.tookRemaining).trace = s.trace ++ [.remaining s.remaining] := rfl
@[simp] theorem State.tookRemaining_txFrames : (s.tookRemaining).txFrames = s.txFrames := rfl
@[simp] theorem State.tookRemaining_txPartial : (s.tookRemaining).txPartial = s.txPartial := rfl
@[simp] theorem State.tookRemaining_draws : (s.tookRemaining).draws = if s.takesDraw then s.draws + 1 else s.draws := rfl
@[simp] theorem State.tookRemaining_result : (s.tookRemaining).result = s.result := rfl
@[simp] theorem State.tookRemaining_sched : (s.tookRemaining).sched = s.sched := rfl
@[simp] theorem State.tookRemaining_inputs : (s.tookRemaining).inputs = s.inputs := rfl
@[simp] theorem State.tookRemaining_driverCall : (s.tookRemaining).driverCall = s.driverCall := rfl

/-! ### State.chkClrDone -/

@[simp] theorem State.chkClrDone_params : (s.chkClrDone).params = s.params := rfl
@[simp] theorem State.chkClrDone_rxbuf : (s.chkClrDone).rxbuf = s.rxbuf := rfl
@[simp] theorem State.chkClrDone_txbuf : (s.chkClrDone).txbuf = s.txbuf := rfl
@[simp] theorem State.chkClrDone_stage : (s.chkClrDone).stage = s.stage := rfl
@[simp] theorem State.chkClrDone_rxState : (s.chkClrDone).rxState = s.rxState := rfl
@[simp] theorem State.chkClrDone_rxLanded : (s.chkClrDone).rxLanded = s.rxLanded := rfl
@[simp] theorem State.chkClrDone_doneFlag : (s.chkClrDone).doneFlag = false := rfl
@[simp] theorem State.chkClrDone_rxGhost : (s.chkClrDone).rxGhost = s.rxGhost := rfl
@[simp] theorem State.chkClrDone_txBusy : (s.chkClrDone).txBusy = s.txBusy := rfl
@[simp] theorem State.chkClrDone_txSent : (s.chkClrDone).txSent = s.txSent := rfl
@[simp] theorem State.chkClrDone_answeredFast : (s.chkClrDone).answeredFast = s.answeredFast := rfl
@[simp] theorem State.chkClrDone_armedSinceReset : (s.chkClrDone).armedSinceReset = s.armedSinceReset := rfl
@[simp] theorem State.chkClrDone_busyOp : (s.chkClrDone).busyOp = s.busyOp := rfl
@[simp] theorem State.chkClrDone_phase : (s.chkClrDone).phase = s.phase := rfl
@[simp] theorem State.chkClrDone_hsState : (s.chkClrDone).hsState = s.hsState := rfl
@[simp] theorem State.chkClrDone_fault : (s.chkClrDone).fault = s.fault := rfl
@[simp] theorem State.chkClrDone_trace : (s.chkClrDone).trace = s.trace ++ [.chkDone s.doneFlag] := rfl
@[simp] theorem State.chkClrDone_txFrames : (s.chkClrDone).txFrames = s.txFrames := rfl
@[simp] theorem State.chkClrDone_txPartial : (s.chkClrDone).txPartial = s.txPartial := rfl
@[simp] theorem State.chkClrDone_draws : (s.chkClrDone).draws = s.draws := rfl
@[simp] theorem State.chkClrDone_result : (s.chkClrDone).result = s.result := rfl
@[simp] theorem State.chkClrDone_sched : (s.chkClrDone).sched = s.sched := rfl
@[simp] theorem State.chkClrDone_inputs : (s.chkClrDone).inputs = s.inputs := rfl
@[simp] theorem State.chkClrDone_driverCall : (s.chkClrDone).driverCall = s.driverCall := rfl

/-! ### State.cancelRx -/

@[simp] theorem State.cancelRx_params : (s.cancelRx).params = s.params := rfl
@[simp] theorem State.cancelRx_rxbuf : (s.cancelRx).rxbuf = s.rxbuf := rfl
@[simp] theorem State.cancelRx_txbuf : (s.cancelRx).txbuf = s.txbuf := rfl
@[simp] theorem State.cancelRx_stage : (s.cancelRx).stage = s.stage := rfl
@[simp] theorem State.cancelRx_rxState : (s.cancelRx).rxState = .idle := rfl
@[simp] theorem State.cancelRx_rxLanded : (s.cancelRx).rxLanded = s.rxLanded := rfl
@[simp] theorem State.cancelRx_doneFlag : (s.cancelRx).doneFlag = s.doneFlag := rfl
@[simp] theorem State.cancelRx_rxGhost : (s.cancelRx).rxGhost = (s.rxGhost || s.leavesGhost) := rfl
@[simp] theorem State.cancelRx_txBusy : (s.cancelRx).txBusy = s.txBusy := rfl
@[simp] theorem State.cancelRx_txSent : (s.cancelRx).txSent = s.txSent := rfl
@[simp] theorem State.cancelRx_answeredFast : (s.cancelRx).answeredFast = s.answeredFast := rfl
@[simp] theorem State.cancelRx_armedSinceReset : (s.cancelRx).armedSinceReset = s.armedSinceReset := rfl
@[simp] theorem State.cancelRx_busyOp : (s.cancelRx).busyOp = s.busyOp := rfl
@[simp] theorem State.cancelRx_phase : (s.cancelRx).phase = s.phase := rfl
@[simp] theorem State.cancelRx_hsState : (s.cancelRx).hsState = s.hsState := rfl
@[simp] theorem State.cancelRx_fault : (s.cancelRx).fault = s.fault := rfl
@[simp] theorem State.cancelRx_trace : (s.cancelRx).trace = s.trace ++ [.cancelRx] := rfl
@[simp] theorem State.cancelRx_txFrames : (s.cancelRx).txFrames = s.txFrames := rfl
@[simp] theorem State.cancelRx_txPartial : (s.cancelRx).txPartial = s.txPartial := rfl
@[simp] theorem State.cancelRx_draws : (s.cancelRx).draws = s.draws := rfl
@[simp] theorem State.cancelRx_result : (s.cancelRx).result = s.result := rfl
@[simp] theorem State.cancelRx_sched : (s.cancelRx).sched = s.sched := rfl
@[simp] theorem State.cancelRx_inputs : (s.cancelRx).inputs = s.inputs := rfl
@[simp] theorem State.cancelRx_driverCall : (s.cancelRx).driverCall = s.driverCall := rfl

/-! ### State.armAndClear -/

@[simp] theorem State.armAndClear_params : (s.armAndClear).params = s.params := rfl
@[simp] theorem State.armAndClear_rxbuf : (s.armAndClear).rxbuf = s.rxbuf := rfl
@[simp] theorem State.armAndClear_txbuf : (s.armAndClear).txbuf = s.txbuf := rfl
@[simp] theorem State.armAndClear_stage : (s.armAndClear).stage = s.stage := rfl
@[simp] theorem State.armAndClear_rxState : (s.armAndClear).rxState = .active := rfl
@[simp] theorem State.armAndClear_rxLanded : (s.armAndClear).rxLanded = 0 := rfl
@[simp] theorem State.armAndClear_doneFlag : (s.armAndClear).doneFlag = false := rfl
@[simp] theorem State.armAndClear_rxGhost : (s.armAndClear).rxGhost = (s.rxGhost || s.leavesGhost) := rfl
@[simp] theorem State.armAndClear_txBusy : (s.armAndClear).txBusy = s.txBusy := rfl
@[simp] theorem State.armAndClear_txSent : (s.armAndClear).txSent = s.txSent := rfl
@[simp] theorem State.armAndClear_answeredFast : (s.armAndClear).answeredFast = false := rfl
@[simp] theorem State.armAndClear_armedSinceReset : (s.armAndClear).armedSinceReset = true := rfl
@[simp] theorem State.armAndClear_busyOp : (s.armAndClear).busyOp = s.busyOp := rfl
@[simp] theorem State.armAndClear_phase : (s.armAndClear).phase = s.phase := rfl
@[simp] theorem State.armAndClear_hsState : (s.armAndClear).hsState = s.hsState := rfl
@[simp] theorem State.armAndClear_fault : (s.armAndClear).fault = s.fault := rfl
@[simp] theorem State.armAndClear_trace : (s.armAndClear).trace = s.trace ++ [.armRx] := rfl
@[simp] theorem State.armAndClear_txFrames : (s.armAndClear).txFrames = s.txFrames := rfl
@[simp] theorem State.armAndClear_txPartial : (s.armAndClear).txPartial = s.txPartial := rfl
@[simp] theorem State.armAndClear_draws : (s.armAndClear).draws = s.draws := rfl
@[simp] theorem State.armAndClear_result : (s.armAndClear).result = s.result := rfl
@[simp] theorem State.armAndClear_sched : (s.armAndClear).sched = s.sched := rfl
@[simp] theorem State.armAndClear_inputs : (s.armAndClear).inputs = s.inputs := rfl
@[simp] theorem State.armAndClear_driverCall : (s.armAndClear).driverCall = s.driverCall := rfl

/-! ### State.writeByte .rxbuf -/

@[simp] theorem State.write_rxbuf_params (off : Nat) (b : Byte) :
    (s.writeByte .rxbuf off b).params = s.params := rfl
@[simp] theorem State.write_rxbuf_rxbuf (off : Nat) (b : Byte) :
    (s.writeByte .rxbuf off b).rxbuf = s.rxbuf.write off b := rfl
@[simp] theorem State.write_rxbuf_txbuf (off : Nat) (b : Byte) :
    (s.writeByte .rxbuf off b).txbuf = s.txbuf := rfl
@[simp] theorem State.write_rxbuf_stage (off : Nat) (b : Byte) :
    (s.writeByte .rxbuf off b).stage = s.stage := rfl
@[simp] theorem State.write_rxbuf_rxState (off : Nat) (b : Byte) :
    (s.writeByte .rxbuf off b).rxState = s.rxState := rfl
@[simp] theorem State.write_rxbuf_rxLanded (off : Nat) (b : Byte) :
    (s.writeByte .rxbuf off b).rxLanded = s.rxLanded := rfl
@[simp] theorem State.write_rxbuf_doneFlag (off : Nat) (b : Byte) :
    (s.writeByte .rxbuf off b).doneFlag = s.doneFlag := rfl
@[simp] theorem State.write_rxbuf_rxGhost (off : Nat) (b : Byte) :
    (s.writeByte .rxbuf off b).rxGhost = s.rxGhost := rfl
@[simp] theorem State.write_rxbuf_txBusy (off : Nat) (b : Byte) :
    (s.writeByte .rxbuf off b).txBusy = s.txBusy := rfl
@[simp] theorem State.write_rxbuf_txSent (off : Nat) (b : Byte) :
    (s.writeByte .rxbuf off b).txSent = s.txSent := rfl
@[simp] theorem State.write_rxbuf_answeredFast (off : Nat) (b : Byte) :
    (s.writeByte .rxbuf off b).answeredFast = s.answeredFast := rfl
@[simp] theorem State.write_rxbuf_armedSinceReset (off : Nat) (b : Byte) :
    (s.writeByte .rxbuf off b).armedSinceReset = s.armedSinceReset := rfl
@[simp] theorem State.write_rxbuf_busyOp (off : Nat) (b : Byte) :
    (s.writeByte .rxbuf off b).busyOp = s.busyOp := rfl
@[simp] theorem State.write_rxbuf_phase (off : Nat) (b : Byte) :
    (s.writeByte .rxbuf off b).phase = s.phase := rfl
@[simp] theorem State.write_rxbuf_hsState (off : Nat) (b : Byte) :
    (s.writeByte .rxbuf off b).hsState = s.hsState := rfl
@[simp] theorem State.write_rxbuf_fault (off : Nat) (b : Byte) :
    (s.writeByte .rxbuf off b).fault = s.fault := rfl
@[simp] theorem State.write_rxbuf_trace (off : Nat) (b : Byte) :
    (s.writeByte .rxbuf off b).trace = s.trace := rfl
@[simp] theorem State.write_rxbuf_txFrames (off : Nat) (b : Byte) :
    (s.writeByte .rxbuf off b).txFrames = s.txFrames := rfl
@[simp] theorem State.write_rxbuf_txPartial (off : Nat) (b : Byte) :
    (s.writeByte .rxbuf off b).txPartial = s.txPartial := rfl
@[simp] theorem State.write_rxbuf_draws (off : Nat) (b : Byte) :
    (s.writeByte .rxbuf off b).draws = s.draws := rfl
@[simp] theorem State.write_rxbuf_result (off : Nat) (b : Byte) :
    (s.writeByte .rxbuf off b).result = s.result := rfl
@[simp] theorem State.write_rxbuf_sched (off : Nat) (b : Byte) :
    (s.writeByte .rxbuf off b).sched = s.sched := rfl
@[simp] theorem State.write_rxbuf_inputs (off : Nat) (b : Byte) :
    (s.writeByte .rxbuf off b).inputs = s.inputs := rfl
@[simp] theorem State.write_rxbuf_driverCall (off : Nat) (b : Byte) :
    (s.writeByte .rxbuf off b).driverCall = s.driverCall := rfl

/-! ### State.writeByte .txbuf -/

@[simp] theorem State.write_txbuf_params (off : Nat) (b : Byte) :
    (s.writeByte .txbuf off b).params = s.params := rfl
@[simp] theorem State.write_txbuf_rxbuf (off : Nat) (b : Byte) :
    (s.writeByte .txbuf off b).rxbuf = s.rxbuf := rfl
@[simp] theorem State.write_txbuf_txbuf (off : Nat) (b : Byte) :
    (s.writeByte .txbuf off b).txbuf = s.txbuf.write off b := rfl
@[simp] theorem State.write_txbuf_stage (off : Nat) (b : Byte) :
    (s.writeByte .txbuf off b).stage = s.stage := rfl
@[simp] theorem State.write_txbuf_rxState (off : Nat) (b : Byte) :
    (s.writeByte .txbuf off b).rxState = s.rxState := rfl
@[simp] theorem State.write_txbuf_rxLanded (off : Nat) (b : Byte) :
    (s.writeByte .txbuf off b).rxLanded = s.rxLanded := rfl
@[simp] theorem State.write_txbuf_doneFlag (off : Nat) (b : Byte) :
    (s.writeByte .txbuf off b).doneFlag = s.doneFlag := rfl
@[simp] theorem State.write_txbuf_rxGhost (off : Nat) (b : Byte) :
    (s.writeByte .txbuf off b).rxGhost = s.rxGhost := rfl
@[simp] theorem State.write_txbuf_txBusy (off : Nat) (b : Byte) :
    (s.writeByte .txbuf off b).txBusy = s.txBusy := rfl
@[simp] theorem State.write_txbuf_txSent (off : Nat) (b : Byte) :
    (s.writeByte .txbuf off b).txSent = s.txSent := rfl
@[simp] theorem State.write_txbuf_answeredFast (off : Nat) (b : Byte) :
    (s.writeByte .txbuf off b).answeredFast = s.answeredFast := rfl
@[simp] theorem State.write_txbuf_armedSinceReset (off : Nat) (b : Byte) :
    (s.writeByte .txbuf off b).armedSinceReset = s.armedSinceReset := rfl
@[simp] theorem State.write_txbuf_busyOp (off : Nat) (b : Byte) :
    (s.writeByte .txbuf off b).busyOp = s.busyOp := rfl
@[simp] theorem State.write_txbuf_phase (off : Nat) (b : Byte) :
    (s.writeByte .txbuf off b).phase = s.phase := rfl
@[simp] theorem State.write_txbuf_hsState (off : Nat) (b : Byte) :
    (s.writeByte .txbuf off b).hsState = s.hsState := rfl
@[simp] theorem State.write_txbuf_fault (off : Nat) (b : Byte) :
    (s.writeByte .txbuf off b).fault = s.fault := rfl
@[simp] theorem State.write_txbuf_trace (off : Nat) (b : Byte) :
    (s.writeByte .txbuf off b).trace = s.trace := rfl
@[simp] theorem State.write_txbuf_txFrames (off : Nat) (b : Byte) :
    (s.writeByte .txbuf off b).txFrames = s.txFrames := rfl
@[simp] theorem State.write_txbuf_txPartial (off : Nat) (b : Byte) :
    (s.writeByte .txbuf off b).txPartial = s.txPartial := rfl
@[simp] theorem State.write_txbuf_draws (off : Nat) (b : Byte) :
    (s.writeByte .txbuf off b).draws = s.draws := rfl
@[simp] theorem State.write_txbuf_result (off : Nat) (b : Byte) :
    (s.writeByte .txbuf off b).result = s.result := rfl
@[simp] theorem State.write_txbuf_sched (off : Nat) (b : Byte) :
    (s.writeByte .txbuf off b).sched = s.sched := rfl
@[simp] theorem State.write_txbuf_inputs (off : Nat) (b : Byte) :
    (s.writeByte .txbuf off b).inputs = s.inputs := rfl
@[simp] theorem State.write_txbuf_driverCall (off : Nat) (b : Byte) :
    (s.writeByte .txbuf off b).driverCall = s.driverCall := rfl

/-! ### State.writeByte .stage -/

@[simp] theorem State.write_stage_params (off : Nat) (b : Byte) :
    (s.writeByte .stage off b).params = s.params := rfl
@[simp] theorem State.write_stage_rxbuf (off : Nat) (b : Byte) :
    (s.writeByte .stage off b).rxbuf = s.rxbuf := rfl
@[simp] theorem State.write_stage_txbuf (off : Nat) (b : Byte) :
    (s.writeByte .stage off b).txbuf = s.txbuf := rfl
@[simp] theorem State.write_stage_stage (off : Nat) (b : Byte) :
    (s.writeByte .stage off b).stage = s.stage.write off b := rfl
@[simp] theorem State.write_stage_rxState (off : Nat) (b : Byte) :
    (s.writeByte .stage off b).rxState = s.rxState := rfl
@[simp] theorem State.write_stage_rxLanded (off : Nat) (b : Byte) :
    (s.writeByte .stage off b).rxLanded = s.rxLanded := rfl
@[simp] theorem State.write_stage_doneFlag (off : Nat) (b : Byte) :
    (s.writeByte .stage off b).doneFlag = s.doneFlag := rfl
@[simp] theorem State.write_stage_rxGhost (off : Nat) (b : Byte) :
    (s.writeByte .stage off b).rxGhost = s.rxGhost := rfl
@[simp] theorem State.write_stage_txBusy (off : Nat) (b : Byte) :
    (s.writeByte .stage off b).txBusy = s.txBusy := rfl
@[simp] theorem State.write_stage_txSent (off : Nat) (b : Byte) :
    (s.writeByte .stage off b).txSent = s.txSent := rfl
@[simp] theorem State.write_stage_answeredFast (off : Nat) (b : Byte) :
    (s.writeByte .stage off b).answeredFast = s.answeredFast := rfl
@[simp] theorem State.write_stage_armedSinceReset (off : Nat) (b : Byte) :
    (s.writeByte .stage off b).armedSinceReset = s.armedSinceReset := rfl
@[simp] theorem State.write_stage_busyOp (off : Nat) (b : Byte) :
    (s.writeByte .stage off b).busyOp = s.busyOp := rfl
@[simp] theorem State.write_stage_phase (off : Nat) (b : Byte) :
    (s.writeByte .stage off b).phase = s.phase := rfl
@[simp] theorem State.write_stage_hsState (off : Nat) (b : Byte) :
    (s.writeByte .stage off b).hsState = s.hsState := rfl
@[simp] theorem State.write_stage_fault (off : Nat) (b : Byte) :
    (s.writeByte .stage off b).fault = s.fault := rfl
@[simp] theorem State.write_stage_trace (off : Nat) (b : Byte) :
    (s.writeByte .stage off b).trace = s.trace := rfl
@[simp] theorem State.write_stage_txFrames (off : Nat) (b : Byte) :
    (s.writeByte .stage off b).txFrames = s.txFrames := rfl
@[simp] theorem State.write_stage_txPartial (off : Nat) (b : Byte) :
    (s.writeByte .stage off b).txPartial = s.txPartial := rfl
@[simp] theorem State.write_stage_draws (off : Nat) (b : Byte) :
    (s.writeByte .stage off b).draws = s.draws := rfl
@[simp] theorem State.write_stage_result (off : Nat) (b : Byte) :
    (s.writeByte .stage off b).result = s.result := rfl
@[simp] theorem State.write_stage_sched (off : Nat) (b : Byte) :
    (s.writeByte .stage off b).sched = s.sched := rfl
@[simp] theorem State.write_stage_inputs (off : Nat) (b : Byte) :
    (s.writeByte .stage off b).inputs = s.inputs := rfl
@[simp] theorem State.write_stage_driverCall (off : Nat) (b : Byte) :
    (s.writeByte .stage off b).driverCall = s.driverCall := rfl

end Sys2Proof.Machine
end

