-- ==== Sys2Proof/Laws/Block.lean ====
section
/-! SUPPORT. Requests as sequences of events: what each building block does when no environment step falls
inside it, and what it keeps under any interleaving (`Keeps`). -/

namespace Sys2Proof.Machine

variable {α β : Type}

/-! ## Running a sequence -/

@[simp] theorem Block.pure_apply (a : α) (s : State) : (pure a : Block α) s = .ok a s := rfl

theorem Block.bind_apply (x : Block α) (f : α → Block β) (s : State) :
    (x >>= f) s = match x s with
      | .ok a t => f a t
      | .error e t => .error e t := by
  show EStateM.bind x f s = _
  unfold EStateM.bind
  cases x s <;> rfl

theorem Block.map_apply (g : α → β) (x : Block α) (s : State) :
    (g <$> x) s = match x s with
      | .ok a t => .ok (g a) t
      | .error e t => .error e t := by
  show EStateM.map g x s = _
  unfold EStateM.map
  cases x s <;> rfl

theorem Block.ite_apply (c : Prop) [Decidable c] (x y : Block α) (s : State) :
    (if c then x else y) s = if c then x s else y s := by split <;> rfl

theorem Block.bind_ok {x : Block α} {f : α → Block β} {s t : State} {a : α} (h : x s = .ok a t) :
    (x >>= f) s = f a t := by simp [Block.bind_apply, h]

theorem Block.bind_error {x : Block α} {f : α → Block β} {s t : State} {e : Stop} (h : x s = .error e t) :
    (x >>= f) s = .error e t := by simp [Block.bind_apply, h]

@[simp] theorem event_apply (f : State → State) (s : State) : event f s = .ok () (f s) := rfl

@[simp] theorem look_apply (f : State → α) (s : State) : look f s = .ok (f s) s := rfl

@[simp] theorem raiseFault_apply (r : FaultRecord) (s : State) :
    (raiseFault r : Block α) s = .error .faulted (s.raise r) := rfl

@[simp] theorem complete_apply (r : Result) (s : State) :
    complete r s = .ok () (s.withResult (some r)) := rfl

@[simp] theorem callGetRemaining_apply (s : State) :
    callGetRemaining s = .ok s.remaining s.tookRemaining := rfl

@[simp] theorem callChkClrDone_apply (s : State) :
    callChkClrDone s = .ok s.doneFlag s.chkClrDone := rfl

@[simp] theorem bufWrite_apply (b : Buffer) (off : Nat) (v : Byte) (s : State) :
    bufWrite b off v s = .ok () (s.writeByte b off v) := rfl

theorem bufRead_ok {b : Buffer} {off : Nat} {v : Byte} {s : State} (h : s.readByte b off = some v) :
    bufRead b off s = .ok v s := by simp [bufRead, h]

theorem bufRead_fault {b : Buffer} {off : Nat} {s : State} (h : s.readByte b off = none) :
    bufRead b off s = .error .faulted (s.raise (.uninitRead off)) := by simp [bufRead, h]

@[simp] theorem readByte_stage (s : State) (off : Nat) : s.readByte .stage off = some (s.stageByte off) := rfl

@[simp] theorem readByte_txbuf (s : State) (off : Nat) : s.readByte .txbuf off = some (s.txByteAt off) := rfl

@[simp] theorem readByte_rxbuf (s : State) (off : Nat) : s.readByte .rxbuf off = s.rxbuf.read off := rfl

@[simp] theorem bufRead_stage (off : Nat) (s : State) : bufRead .stage off s = .ok (s.stageByte off) s := rfl

/-- With no burst left, nothing happens between two events. -/
theorem between_undisturbed {s : State} (h : s.sched = []) : between s = .ok () s := by simp [between, h]

/-- Everything the point between two events can do: with no burst left nothing; else the burst's environment
steps occur, and the request goes on unless one of them faulted or ended its wait. -/
theorem between_cases (s : State) :
    (s.sched = [] ∧ between s = .ok () s) ∨
    ∃ burst rest, s.sched = burst :: rest ∧
      let t := State.runEnv { s with sched := rest } burst
      (t.fault.isSome = true ∧ between s = .error .faulted t) ∨
      (t.fault = none ∧ t.busyOp ≠ s.busyOp ∧ between s = .error .timedOut t) ∨
      (t.fault = none ∧ t.busyOp = s.busyOp ∧ between s = .ok () t) := by
  rcases h : s.sched with _ | ⟨burst, rest⟩
  · exact .inl ⟨rfl, by simp [between, h]⟩
  · refine .inr ⟨burst, rest, rfl, ?_⟩
    simp only [between, h]
    split_ifs with h1 h2
    · exact .inl ⟨h1, rfl⟩
    · exact .inr (.inl ⟨by simpa using h1, h2, rfl⟩)
    · exact .inr (.inr ⟨by simpa using h1, by simpa using h2, rfl⟩)

/-! ## Keeping a property under any interleaving -/

/-- From a state with `P`, every state the sequence can leave, at its end or where it is stopped, has `P`. -/
def Keeps (P : State → Prop) (x : Block α) : Prop :=
  ∀ s, P s → match x s with
    | .ok _ t => P t
    | .error _ t => P t

/-- `P` survives every environment step and the taking of a burst from the schedule. -/
structure EnvKeeps (P : State → Prop) : Prop where
  env : ∀ s e, P s → P (s.envStep e)
  sched : ∀ s l, P s → P { s with sched := l }

theorem runEnv_keeps {P : State → Prop} (h : EnvKeeps P) (es : List EnvStep) (s : State) (hs : P s) :
    P (s.runEnv es) := by
  induction es generalizing s with
  | nil => exact hs
  | cons e es ih => exact ih _ (h.env s e hs)

theorem keeps_pure (P : State → Prop) (a : α) : Keeps P (pure a : Block α) := fun _ h => h

theorem keeps_look (P : State → Prop) (f : State → α) : Keeps P (look f) := fun _ h => h

theorem keeps_bind {P : State → Prop} {x : Block α} {f : α → Block β} (hx : Keeps P x)
    (hf : ∀ a, Keeps P (f a)) : Keeps P (x >>= f) := by
  intro s hs
  have h1 := hx s hs
  rw [Block.bind_apply]
  cases h : x s with
  | ok a t => rw [h] at h1; exact hf a t h1
  | error e t => rw [h] at h1; exact h1

/-- A look at State and what follows it, where what follows may use that State had `P`. -/
theorem keeps_look_bind {P : State → Prop} {g : State → α} {f : α → Block β}
    (hf : ∀ s, P s → match f (g s) s with
      | .ok _ t => P t
      | .error _ t => P t) : Keeps P (look g >>= f) := hf

theorem keeps_event {P : State → Prop} {f : State → State} (h : ∀ s, P s → P (f s)) :
    Keeps P (event f) := h

theorem keeps_raise {P : State → Prop} {r : FaultRecord} (h : ∀ s, P s → P (s.raise r)) :
    Keeps P (raiseFault r : Block α) := h

theorem keeps_complete {P : State → Prop} {r : Result} (h : ∀ s, P s → P (s.withResult (some r))) :
    Keeps P (complete r) := h

theorem keeps_ite {P : State → Prop} {c : Prop} [Decidable c] {x y : Block α} (hx : Keeps P x)
    (hy : Keeps P y) : Keeps P (if c then x else y) := by split <;> assumption

theorem keeps_between {P : State → Prop} (h : EnvKeeps P) : Keeps P between := by
  intro s hs
  rcases between_cases s with ⟨_, hb⟩ | ⟨burst, rest, _, hb⟩
  · rw [hb]; exact hs
  · have ht := runEnv_keeps h burst _ (h.sched s rest hs)
    rcases hb with ⟨_, hb⟩ | ⟨_, _, hb⟩ | ⟨_, _, hb⟩ <;> rw [hb] <;> exact ht

theorem keeps_callGetRemaining {P : State → Prop} (h : ∀ s, P s → P s.tookRemaining) :
    Keeps P callGetRemaining := h

theorem keeps_callChkClrDone {P : State → Prop} (h : ∀ s, P s → P s.chkClrDone) :
    Keeps P callChkClrDone := h

theorem keeps_bufWrite {P : State → Prop} {b : Buffer} {off : Nat} {v : Byte}
    (h : ∀ s, P s → P (s.writeByte b off v)) : Keeps P (bufWrite b off v) := h

theorem keeps_bufRead {P : State → Prop} {b : Buffer} {off : Nat}
    (h : ∀ s, P s → P (s.raise (.uninitRead off))) : Keeps P (bufRead b off) := by
  intro s hs
  cases hr : s.readByte b off with
  | some v => rw [bufRead_ok hr]; exact hs
  | none => rw [bufRead_fault hr]; exact h s hs

theorem keeps_rd16 {P : State → Prop} {b : Buffer} {off : Nat} (he : EnvKeeps P)
    (h : ∀ s o, P s → P (s.raise (.uninitRead o))) : Keeps P (rd16 b off) :=
  keeps_bind (keeps_bufRead fun s => h s _) fun _ => keeps_bind (keeps_between he) fun _ =>
    keeps_bind (keeps_bufRead fun s => h s _) fun _ => keeps_pure P _

theorem keeps_wr16 {P : State → Prop} {b : Buffer} {off : Nat} {v : Half} (he : EnvKeeps P)
    (h : ∀ s b' , P s → P (s.writeByte b off b'))
    (h' : ∀ s b' , P s → P (s.writeByte b (off + 1) b')) : Keeps P (wr16 b off v) :=
  keeps_bind (keeps_bufWrite fun s => h s _) fun _ => keeps_bind (keeps_between he) fun _ =>
    keeps_bufWrite fun s => h' s _

theorem keeps_rearmRx {P : State → Prop} (he : EnvKeeps P) (ha : ∀ s, P s → P s.armRx)
    (hb : ∀ s, P s → P (s.setAnswered false)) : Keeps P rearmRx :=
  keeps_bind (keeps_event ha) fun _ => keeps_bind (keeps_between he) fun _ => keeps_event hb

/-- What a request leaves has whatever its events keep. -/
theorem finish_keeps {P : State → Prop} {x : Block Unit} (h : Keeps P x) (s : State) (hs : P s) :
    P (finish x s) := by
  have := h s hs
  unfold finish
  cases hx : x s <;> rw [hx] at this <;> exact this

/-! ## Undisturbed sequences -/

/-- `Rd16` of two readable bytes, undisturbed: one value, no effect. -/
theorem rd16_undisturbed {b : Buffer} {off : Nat} {s : State} {lo hi : Byte} (hs : s.sched = [])
    (hlo : s.readByte b off = some lo) (hhi : s.readByte b (off + 1) = some hi) :
    rd16 b off s = .ok (le16 lo hi) s := by
  simp [rd16, Block.bind_apply, Block.map_apply, bufRead, hlo, hhi, between_undisturbed hs]

theorem rd16_stage_undisturbed {off : Nat} {s : State} (hs : s.sched = []) :
    rd16 .stage off s = .ok (le16 (s.stageByte off) (s.stageByte (off + 1))) s :=
  rd16_undisturbed hs rfl rfl

/-- `Wr16`, undisturbed: the two byte writes. -/
theorem wr16_undisturbed {b : Buffer} {off : Nat} {v : Half} {s : State} (hs : s.sched = []) :
    wr16 b off v s = .ok () ((s.writeByte b off (loByte v)).writeByte b (off + 1) (hiByte v)) := by
  have : (s.writeByte b off (loByte v)).sched = [] := by cases b <;> exact hs
  simp [wr16, Block.bind_apply, between_undisturbed this]

/-- `rearm_rx()`, undisturbed (R110). -/
theorem rearmRx_undisturbed {s : State} (hs : s.sched = []) :
    rearmRx s = .ok () (s.armRx.setAnswered false) := by
  have : s.armRx.sched = [] := hs
  simp [rearmRx, Block.bind_apply, between_undisturbed this]

/-! ## Gates -/

theorem guarded_ready {s : State} {o : Host.Outcome State Fault Refusal} (hp : s.params.ok = true)
    (hf : s.fault = none) : guarded s o = o := by simp [guarded, hp, hf]

/-- A gated step answers a next state only from legal parameters and no recorded fault. -/
theorem guarded_next {s t : State} {o : Host.Outcome State Fault Refusal} (h : guarded s o = .next t) :
    s.params.ok = true ∧ s.fault = none ∧ o = .next t := by
  unfold guarded at h
  split at h
  · simp at h
  · split at h
    · simp at h
    · exact ⟨by simp_all, by assumption, h⟩

/-- Everything a host request can do when it answers a next state. -/
theorem hostRequest_next {body : Block Unit} {s t : State} (h : hostRequest body s = .next t) :
    s.params.ok = true ∧ s.fault = none ∧ s.busyOp = .none ∧ t = finish body (s.withResult none) := by
  obtain ⟨hp, hf, h⟩ := guarded_next h
  split at h
  · simp at h
  · exact ⟨hp, hf, by simp_all, by simpa [eq_comm] using h⟩

theorem hostRequest_ready {body : Block Unit} {s : State} (hp : s.params.ok = true) (hf : s.fault = none)
    (hb : s.busyOp = .none) : hostRequest body s = .next (finish body (s.withResult none)) := by
  simp [hostRequest, guarded, hp, hf, hb]

theorem driverEvent_ready {f : State → State} {s : State} (hp : s.params.ok = true) (hf : s.fault = none) :
    driverEvent f s = .next (f s) := guarded_ready hp hf

theorem driverEvent_next {f : State → State} {s t : State} (h : driverEvent f s = .next t) :
    s.params.ok = true ∧ s.fault = none ∧ t = f s := by
  obtain ⟨hp, hf, h⟩ := guarded_next h
  exact ⟨hp, hf, by simpa [eq_comm] using h⟩

end Sys2Proof.Machine
end

