-- ==== Sys2Proof/Laws/Codec.lean ====
section
/-! SUPPORT. Small laws of the codec (R79) and of the fields of a request word (R66). -/

namespace Sys2Proof.Machine

/-- Bit by bit, `le16(lo, hi)` has `lo` in bits 7:0 and `hi` in bits 15:8 (R46). -/
theorem le16_getLsbD (lo hi : Byte) (i : Nat) :
    (le16 lo hi).getLsbD i = if i < 8 then lo.getLsbD i else hi.getLsbD (i - 8) := by
  have h := BitVec.getLsbD_append (x := hi) (y := lo) (i := i)
  exact h

@[simp] theorem le16_bytes (v : Half) : le16 (loByte v) (hiByte v) = v := by
  apply BitVec.eq_of_getLsbD_eq
  intro i hi
  rw [le16_getLsbD]
  split
  · simp [loByte, *]
  · rename_i h
    simp [hiByte, show i - 8 < 8 by omega, show 8 + (i - 8) = i by omega]

@[simp] theorem loByte_le16 (lo hi : Byte) : loByte (le16 lo hi) = lo := by
  apply BitVec.eq_of_getLsbD_eq
  intro i h
  simp [loByte, le16_getLsbD, h]

@[simp] theorem hiByte_le16 (lo hi : Byte) : hiByte (le16 lo hi) = hi := by
  apply BitVec.eq_of_getLsbD_eq
  intro i h
  simp [hiByte, le16_getLsbD, h]

/-- What `over_length` decides (R86). -/
theorem overLength_iff (p : Params) (l : Nat) : overLength p l = true ↔ p.payloadCap < l := by
  simp [overLength]

end Sys2Proof.Machine

namespace Sys2Proof

variable (o : BitVec 4) (m : BitVec 2) (a : Half)

/-- Bit by bit, the fields of a request word (R66). -/
theorem requestWord_getLsbD (i : Nat) :
    (requestWord o m a).getLsbD i =
      if i < 4 then o.getLsbD i
      else if i < 8 then false
      else if i < 10 then m.getLsbD (i - 8)
      else if i < 16 then false
      else a.getLsbD (i - 16) := by
  have h1 := BitVec.getLsbD_append (x := a) (y := 0#6 ++ (m ++ (0#4 ++ o))) (i := i)
  have h2 := BitVec.getLsbD_append (x := 0#6) (y := m ++ (0#4 ++ o)) (i := i)
  have h3 := BitVec.getLsbD_append (x := m) (y := 0#4 ++ o) (i := i)
  have h4 := BitVec.getLsbD_append (x := 0#4) (y := o) (i := i)
  rw [h4] at h3
  rw [h3] at h2
  rw [h2] at h1
  refine Eq.trans h1 ?_
  by_cases c1 : i < 4
  · simp [c1, show i < 6 + (2 + (4 + 4)) by omega, show i < 2 + (4 + 4) by omega, show i < 4 + 4 by omega]
  by_cases c2 : i < 8
  · simp [c1, c2, show i < 6 + (2 + (4 + 4)) by omega, show i < 2 + (4 + 4) by omega]
  by_cases c3 : i < 10
  · simp [c1, c2, c3, show i < 6 + (2 + (4 + 4)) by omega]
  by_cases c4 : i < 16
  · simp [c1, c2, c3, c4]
  · simp [c1, c2, c3, c4]

@[simp] theorem opselField_requestWord : opselField (requestWord o m a) = o := by
  apply BitVec.eq_of_getLsbD_eq
  intro i h
  simp [opselField, requestWord_getLsbD, h]

@[simp] theorem reservedLow_requestWord : reservedLow (requestWord o m a) = 0 := by
  apply BitVec.eq_of_getLsbD_eq
  intro i h
  simp [reservedLow, requestWord_getLsbD, h, show ¬ 4 + i < 4 by omega, show 4 + i < 8 by omega]

@[simp] theorem modField_requestWord : modField (requestWord o m a) = m := by
  apply BitVec.eq_of_getLsbD_eq
  intro i h
  simp [modField, requestWord_getLsbD, h, show ¬ 8 + i < 4 by omega, show ¬ 8 + i < 8 by omega, show 8 + i < 10 by omega]

@[simp] theorem reservedHigh_requestWord : reservedHigh (requestWord o m a) = 0 := by
  apply BitVec.eq_of_getLsbD_eq
  intro i h
  simp [reservedHigh, requestWord_getLsbD, h, show ¬ 10 + i < 4 by omega, show ¬ 10 + i < 8 by omega, show ¬ 10 + i < 10 by omega,
    show 10 + i < 16 by omega]

@[simp] theorem argField_requestWord : argField (requestWord o m a) = a := by
  apply BitVec.eq_of_getLsbD_eq
  intro i h
  simp [argField, requestWord_getLsbD, h, show ¬ 16 + i < 4 by omega, show ¬ 16 + i < 8 by omega, show ¬ 16 + i < 10 by omega,
    show ¬ 16 + i < 16 by omega]

end Sys2Proof
end

