-- ==== Sys2Proof/Laws/Link.lean ====
section
/-! SUPPORT. What environment steps do and what they never touch (R99 to R102, R135). -/

namespace Sys2Proof.Machine

/-- An environment step from a faulted state changes nothing (R141). -/
theorem envStep_faulted {s : State} (e : EnvStep) (h : s.fault.isSome = true) : s.envStep e = s := by
  simp [State.envStep, h]

theorem runEnv_faulted {s : State} (es : List EnvStep) (h : s.fault.isSome = true) : s.runEnv es = s := by
  induction es with
  | nil => rfl
  | cons e es ih => rw [State.runEnv, envStep_faulted e h, ih]

/-- Everything an environment step can do. -/
theorem envStep_cases (s : State) (e : EnvStep) :
    s.envStep e = s ∨
    (s.fault = none ∧ ((∃ b, e = .rxLand b ∧ s.rxState = .active ∧ s.envStep e = { s with
        rxbuf := s.rxbuf.write s.rxLanded b
        rxLanded := s.rxLanded + 1
        rxState := if s.rxLanded + 1 = s.params.frameSize then .donePending else .active }) ∨
      (∃ b, e = .rxLand b ∧ s.rxState ≠ .active ∧ s.envStep e = s.raise (.rxOverrun b s.rxState)) ∨
      (e = .rxComplete ∧ s.rxState = .donePending ∧
        s.envStep e = { s with doneFlag := true, rxState := .done }) ∨
      (e = .ghostFire ∧ s.rxGhost = true ∧ s.envStep e = { s with doneFlag := true, rxGhost := false }) ∨
      (e = .ghostDrop ∧ s.rxGhost = true ∧ s.envStep e = { s with rxGhost := false }) ∨
      (e = .txByte ∧ s.txBusy = true ∧ s.txSent + 1 = s.params.frameSize ∧ s.envStep e = { s with
        txBusy := false
        txSent := s.txSent + 1
        txFrames := s.txFrames ++ [s.txPartial ++ [s.txByteAt s.txSent]]
        txPartial := [] }) ∨
      (e = .txByte ∧ s.txBusy = true ∧ s.txSent + 1 ≠ s.params.frameSize ∧ s.envStep e = { s with
        txSent := s.txSent + 1
        txPartial := s.txPartial ++ [s.txByteAt s.txSent] }) ∨
      (e = .timeout ∧ s.params.hsTimeout = .nondet ∧ s.busyOp.isWait = true ∧ s.envStep e = { s with
        trace := s.trace ++ [.hsTimeout]
        hsState := .idle
        busyOp := .none
        result := some .timeout }))) := by
  cases hf : s.fault with
  | some r => left; simp [State.envStep, hf]
  | none =>
    cases e with
    | rxLand b =>
      by_cases h : s.rxState = .active
      · refine .inr ⟨rfl, .inl ⟨b, rfl, h, ?_⟩⟩
        simp [State.envStep, hf, State.rxLand, h]
      · refine .inr ⟨rfl, .inr (.inl ⟨b, rfl, h, ?_⟩)⟩
        simp [State.envStep, hf, State.rxLand, h]
    | rxComplete =>
      by_cases h : s.rxState = .donePending <;> simp [State.envStep, hf, State.rxComplete, h]
    | ghostFire =>
      cases h : s.rxGhost <;> simp [State.envStep, hf, State.ghostFire, h]
    | ghostDrop =>
      cases h : s.rxGhost <;> simp [State.envStep, hf, State.ghostDrop, h]
    | txByte =>
      cases h : s.txBusy
      · simp [State.envStep, hf, State.txByte, h]
      · by_cases h2 : s.txSent + 1 = s.params.frameSize <;>
          simp [State.envStep, hf, State.txByte, h, h2]
    | timeout =>
      by_cases h : s.params.hsTimeout = .nondet ∧ s.busyOp.isWait = true
      · simp [State.envStep, hf, State.hsTimeout, h]
      · simp [State.envStep, hf, State.hsTimeout, h]

@[simp] theorem envStep_params (s : State) (e : EnvStep) : (s.envStep e).params = s.params := by
  rcases envStep_cases s e with h | ⟨_, h⟩
  · rw [h]
  · rcases h with ⟨_, _, _, h⟩ | ⟨_, _, _, h⟩ | ⟨_, _, h⟩ | ⟨_, _, h⟩ | ⟨_, _, h⟩ | ⟨_, _, _, h⟩ | ⟨_, _, _, h⟩ |
      ⟨_, _, _, h⟩ <;> simp [h]

@[simp] theorem runEnv_params (s : State) (es : List EnvStep) : (s.runEnv es).params = s.params := by
  induction es generalizing s with
  | nil => rfl
  | cons e es ih => rw [State.runEnv, ih, envStep_params]

@[simp] theorem envStep_txbuf (s : State) (e : EnvStep) : (s.envStep e).txbuf = s.txbuf := by
  rcases envStep_cases s e with h | ⟨_, h⟩
  · rw [h]
  · rcases h with ⟨_, _, _, h⟩ | ⟨_, _, _, h⟩ | ⟨_, _, h⟩ | ⟨_, _, h⟩ | ⟨_, _, h⟩ | ⟨_, _, _, h⟩ | ⟨_, _, _, h⟩ |
      ⟨_, _, _, h⟩ <;> simp [h]

@[simp] theorem runEnv_txbuf (s : State) (es : List EnvStep) : (s.runEnv es).txbuf = s.txbuf := by
  induction es generalizing s with
  | nil => rfl
  | cons e es ih => rw [State.runEnv, ih, envStep_txbuf]

@[simp] theorem envStep_stage (s : State) (e : EnvStep) : (s.envStep e).stage = s.stage := by
  rcases envStep_cases s e with h | ⟨_, h⟩
  · rw [h]
  · rcases h with ⟨_, _, _, h⟩ | ⟨_, _, _, h⟩ | ⟨_, _, h⟩ | ⟨_, _, h⟩ | ⟨_, _, h⟩ | ⟨_, _, _, h⟩ | ⟨_, _, _, h⟩ |
      ⟨_, _, _, h⟩ <;> simp [h]

@[simp] theorem runEnv_stage (s : State) (es : List EnvStep) : (s.runEnv es).stage = s.stage := by
  induction es generalizing s with
  | nil => rfl
  | cons e es ih => rw [State.runEnv, ih, envStep_stage]

@[simp] theorem envStep_phase (s : State) (e : EnvStep) : (s.envStep e).phase = s.phase := by
  rcases envStep_cases s e with h | ⟨_, h⟩
  · rw [h]
  · rcases h with ⟨_, _, _, h⟩ | ⟨_, _, _, h⟩ | ⟨_, _, h⟩ | ⟨_, _, h⟩ | ⟨_, _, h⟩ | ⟨_, _, _, h⟩ | ⟨_, _, _, h⟩ |
      ⟨_, _, _, h⟩ <;> simp [h]

@[simp] theorem runEnv_phase (s : State) (es : List EnvStep) : (s.runEnv es).phase = s.phase := by
  induction es generalizing s with
  | nil => rfl
  | cons e es ih => rw [State.runEnv, ih, envStep_phase]

@[simp] theorem envStep_answeredFast (s : State) (e : EnvStep) : (s.envStep e).answeredFast = s.answeredFast := by
  rcases envStep_cases s e with h | ⟨_, h⟩
  · rw [h]
  · rcases h with ⟨_, _, _, h⟩ | ⟨_, _, _, h⟩ | ⟨_, _, h⟩ | ⟨_, _, h⟩ | ⟨_, _, h⟩ | ⟨_, _, _, h⟩ | ⟨_, _, _, h⟩ |
      ⟨_, _, _, h⟩ <;> simp [h]

@[simp] theorem runEnv_answeredFast (s : State) (es : List EnvStep) : (s.runEnv es).answeredFast = s.answeredFast := by
  induction es generalizing s with
  | nil => rfl
  | cons e es ih => rw [State.runEnv, ih, envStep_answeredFast]

@[simp] theorem envStep_armedSinceReset (s : State) (e : EnvStep) : (s.envStep e).armedSinceReset = s.armedSinceReset := by
  rcases envStep_cases s e with h | ⟨_, h⟩
  · rw [h]
  · rcases h with ⟨_, _, _, h⟩ | ⟨_, _, _, h⟩ | ⟨_, _, h⟩ | ⟨_, _, h⟩ | ⟨_, _, h⟩ | ⟨_, _, _, h⟩ | ⟨_, _, _, h⟩ |
      ⟨_, _, _, h⟩ <;> simp [h]

@[simp] theorem runEnv_armedSinceReset (s : State) (es : List EnvStep) : (s.runEnv es).armedSinceReset = s.armedSinceReset := by
  induction es generalizing s with
  | nil => rfl
  | cons e es ih => rw [State.runEnv, ih, envStep_armedSinceReset]

@[simp] theorem envStep_draws (s : State) (e : EnvStep) : (s.envStep e).draws = s.draws := by
  rcases envStep_cases s e with h | ⟨_, h⟩
  · rw [h]
  · rcases h with ⟨_, _, _, h⟩ | ⟨_, _, _, h⟩ | ⟨_, _, h⟩ | ⟨_, _, h⟩ | ⟨_, _, h⟩ | ⟨_, _, _, h⟩ | ⟨_, _, _, h⟩ |
      ⟨_, _, _, h⟩ <;> simp [h]

@[simp] theorem runEnv_draws (s : State) (es : List EnvStep) : (s.runEnv es).draws = s.draws := by
  induction es generalizing s with
  | nil => rfl
  | cons e es ih => rw [State.runEnv, ih, envStep_draws]

@[simp] theorem envStep_sched (s : State) (e : EnvStep) : (s.envStep e).sched = s.sched := by
  rcases envStep_cases s e with h | ⟨_, h⟩
  · rw [h]
  · rcases h with ⟨_, _, _, h⟩ | ⟨_, _, _, h⟩ | ⟨_, _, h⟩ | ⟨_, _, h⟩ | ⟨_, _, h⟩ | ⟨_, _, _, h⟩ | ⟨_, _, _, h⟩ |
      ⟨_, _, _, h⟩ <;> simp [h]

@[simp] theorem runEnv_sched (s : State) (es : List EnvStep) : (s.runEnv es).sched = s.sched := by
  induction es generalizing s with
  | nil => rfl
  | cons e es ih => rw [State.runEnv, ih, envStep_sched]

@[simp] theorem envStep_inputs (s : State) (e : EnvStep) : (s.envStep e).inputs = s.inputs := by
  rcases envStep_cases s e with h | ⟨_, h⟩
  · rw [h]
  · rcases h with ⟨_, _, _, h⟩ | ⟨_, _, _, h⟩ | ⟨_, _, h⟩ | ⟨_, _, h⟩ | ⟨_, _, h⟩ | ⟨_, _, _, h⟩ | ⟨_, _, _, h⟩ |
      ⟨_, _, _, h⟩ <;> simp [h]

@[simp] theorem runEnv_inputs (s : State) (es : List EnvStep) : (s.runEnv es).inputs = s.inputs := by
  induction es generalizing s with
  | nil => rfl
  | cons e es ih => rw [State.runEnv, ih, envStep_inputs]

@[simp] theorem envStep_driverCall (s : State) (e : EnvStep) : (s.envStep e).driverCall = s.driverCall := by
  rcases envStep_cases s e with h | ⟨_, h⟩
  · rw [h]
  · rcases h with ⟨_, _, _, h⟩ | ⟨_, _, _, h⟩ | ⟨_, _, h⟩ | ⟨_, _, h⟩ | ⟨_, _, h⟩ | ⟨_, _, _, h⟩ | ⟨_, _, _, h⟩ |
      ⟨_, _, _, h⟩ <;> simp [h]

@[simp] theorem runEnv_driverCall (s : State) (es : List EnvStep) : (s.runEnv es).driverCall = s.driverCall := by
  induction es generalizing s with
  | nil => rfl
  | cons e es ih => rw [State.runEnv, ih, envStep_driverCall]

/-- Outside a wait, no environment step ends a request, moves the round trip, emits an event or hands back a
result: only TIMEOUT does, and it is enabled in a wait only (R135). -/
theorem envStep_outside_wait (s : State) (e : EnvStep) (h : s.busyOp.isWait = false) :
    (s.envStep e).busyOp = s.busyOp ∧ (s.envStep e).hsState = s.hsState ∧ (s.envStep e).trace = s.trace ∧
      (s.envStep e).result = s.result := by
  rcases envStep_cases s e with h' | ⟨_, h'⟩
  · rw [h']; simp
  · rcases h' with ⟨_, _, _, h'⟩ | ⟨_, _, _, h'⟩ | ⟨_, _, h'⟩ | ⟨_, _, h'⟩ | ⟨_, _, h'⟩ | ⟨_, _, _, h'⟩ | ⟨_, _, _, h'⟩ |
      ⟨_, _, hw, h'⟩ <;> first | exact absurd (hw.symm.trans h) (by simp) | (rw [h']; simp)

theorem runEnv_outside_wait (es : List EnvStep) (s : State) (h : s.busyOp.isWait = false) :
    (s.runEnv es).busyOp = s.busyOp ∧ (s.runEnv es).hsState = s.hsState ∧ (s.runEnv es).trace = s.trace ∧
      (s.runEnv es).result = s.result := by
  induction es generalizing s with
  | nil => simp [State.runEnv]
  | cons e es ih =>
    have h1 := envStep_outside_wait s e h
    have h2 := ih (s.envStep e) (by rw [h1.1]; exact h)
    simp only [State.runEnv]
    exact ⟨h2.1.trans h1.1, h2.2.1.trans h1.2.1, h2.2.2.1.trans h1.2.2.1, h2.2.2.2.trans h1.2.2.2⟩

/-- No environment step starts a transmission: `tx_busy` is never raised (R26, R102). -/
theorem envStep_txBusy_false (s : State) (e : EnvStep) (h : s.txBusy = false) :
    (s.envStep e).txBusy = false ∧ (s.envStep e).txSent = s.txSent ∧ (s.envStep e).txFrames = s.txFrames ∧
      (s.envStep e).txPartial = s.txPartial := by
  rcases envStep_cases s e with h' | ⟨_, h'⟩
  · rw [h']; simp [h]
  · rcases h' with ⟨_, _, _, h'⟩ | ⟨_, _, _, h'⟩ | ⟨_, _, h'⟩ | ⟨_, _, h'⟩ | ⟨_, _, h'⟩ | ⟨_, hb, _, h'⟩ |
      ⟨_, hb, _, h'⟩ | ⟨_, _, _, h'⟩ <;> first | exact absurd (hb.symm.trans h) (by simp) | (rw [h']; simp [h])

theorem runEnv_txBusy_false (es : List EnvStep) (s : State) (h : s.txBusy = false) :
    (s.runEnv es).txBusy = false ∧ (s.runEnv es).txSent = s.txSent ∧ (s.runEnv es).txFrames = s.txFrames ∧
      (s.runEnv es).txPartial = s.txPartial := by
  induction es generalizing s with
  | nil => simp [State.runEnv, h]
  | cons e es ih =>
    have h1 := envStep_txBusy_false s e h
    have h2 := ih (s.envStep e) h1.1
    simp only [State.runEnv]
    exact ⟨h2.1, h2.2.1.trans h1.2.1, h2.2.2.1.trans h1.2.2.1, h2.2.2.2.trans h1.2.2.2⟩

/-- Landing writes only at `rx_landed` and above, so bytes below it keep their value; `rx_landed` never falls
(R50, R58). -/
theorem envStep_below_landed (s : State) (e : EnvStep) :
    s.rxLanded ≤ (s.envStep e).rxLanded ∧
      ∀ off, off < s.rxLanded → (s.envStep e).rxbuf.read off = s.rxbuf.read off := by
  rcases envStep_cases s e with h' | ⟨_, h'⟩
  · rw [h']; simp
  · rcases h' with ⟨_, _, _, h'⟩ | ⟨_, _, _, h'⟩ | ⟨_, _, h'⟩ | ⟨_, _, h'⟩ | ⟨_, _, h'⟩ | ⟨_, _, _, h'⟩ | ⟨_, _, _, h'⟩ |
      ⟨_, _, _, h'⟩ <;> rw [h'] <;> simp
    intro off hoff
    exact Memory.read_write_other _ _ (by omega)

theorem runEnv_below_landed (es : List EnvStep) (s : State) :
    s.rxLanded ≤ (s.runEnv es).rxLanded ∧
      ∀ off, off < s.rxLanded → (s.runEnv es).rxbuf.read off = s.rxbuf.read off := by
  induction es generalizing s with
  | nil => simp [State.runEnv]
  | cons e es ih =>
    have h1 := envStep_below_landed s e
    have h2 := ih (s.envStep e)
    simp only [State.runEnv]
    exact ⟨h1.1.trans h2.1, fun off hoff => (h2.2 off (by omega)).trans (h1.2 off hoff)⟩

end Sys2Proof.Machine
end

