-- ==== Sys2Proof/Laws/Requests.lean ====
section
/-! SUPPORT. What the pieces of the requests do when undisturbed, one lemma each, and what whole requests keep
under any interleaving, given what their events keep. -/

namespace Sys2Proof.Machine

/-! ## Undisturbed pieces -/

theorem hostRequest_of_ready {s : State} (h : s.Ready) (body : Block Unit) :
    hostRequest body s = .next (finish body (s.withResult none)) := hostRequest_ready h.1 h.2.1 h.2.2

theorem finish_ok {body : Block Unit} {s t : State} (h : body s = .ok () t) : finish body s = t := by
  simp [finish, h]

theorem finish_error {body : Block Unit} {s t : State} {e : Stop} (h : body s = .error e t) :
    finish body s = t := by simp [finish, h]

/-- A driver's re-arm or cancel leaves a ghost exactly as R94 and R98 say. -/
theorem ghost_after (s : State) :
    (if s.rxState = .donePending ∧ s.params.staleCompletion = .mayFire then true else s.rxGhost) =
      (s.rxGhost || s.leavesGhost) := by
  unfold State.leavesGhost
  by_cases h1 : s.rxState = .donePending <;> by_cases h2 : s.params.staleCompletion = .mayFire <;>
    simp [h1, h2]

/-- The count never exceeds `F`, whatever the draw (R96). -/
theorem remaining_le (s : State) : s.remaining ≤ s.params.frameSize := by
  unfold State.remaining
  split
  · omega
  · split
    · omega
    · omega
    · have := Nat.mod_lt (Config.remainingDraw s.draws).toNat (show 0 < s.params.frameSize + 1 by omega)
      omega

theorem rxField_some {s : State} {off : Nat} {v : Half} (h : s.rxField off = some v) :
    ∃ lo hi, s.rxbuf.read off = some lo ∧ s.rxbuf.read (off + 1) = some hi ∧ v = le16 lo hi := by
  unfold State.rxField at h
  split at h
  · rename_i lo hi h1 h2
    exact ⟨lo, hi, h1, h2, by simpa [eq_comm] using h⟩
  · simp at h

/-- `Rd16` of a field of RXBUF that has been written, undisturbed. -/
theorem rd16_rxField {s : State} {off : Nat} {v : Half} (hs : s.sched = []) (h : s.rxField off = some v) :
    rd16 .rxbuf off s = .ok v s := by
  obtain ⟨lo, hi, h1, h2, rfl⟩ := rxField_some h
  exact rd16_undisturbed hs h1 h2

theorem rd16_stageField {s : State} {off : Nat} (hs : s.sched = []) :
    rd16 .stage off s = .ok (s.stageField off) s := rd16_stage_undisturbed hs

/-- The lazily read resolution is the codec's on the whole frame's fields (R84, R88). -/
theorem readResolution_undisturbed {s : State} {len1 len2 valid : Half} (hs : s.sched = [])
    (h1 : s.rxField len1Off = some len1) (h2 : s.rxField (len2Off s.params) = some len2)
    (hv : s.rxField (validOff s.params) = some valid) :
    readResolution s = .ok (resolveFull len1 valid len2) s := by
  unfold readResolution resolveFull
  simp only [Block.bind_apply, look_apply, rd16_rxField hs h1, Block.ite_apply, between_undisturbed hs,
    rd16_rxField hs hv, rd16_rxField hs h2, Block.pure_apply]
  split_ifs <;> rfl

/-- What a copy of `n` bytes from offset `off` leaves, undisturbed: TXBUF holds STAGE's bytes there, and nothing
else has changed (R126). -/
theorem copyBytes_undisturbed (n off : Nat) (s : State) (hs : s.sched = []) :
    ∃ m, copyBytes off n s = .ok () { s with txbuf := m } ∧
      (∀ a, off ≤ a → a < off + n → m.read a = some (s.stageByte a)) ∧
      (∀ a, a < off ∨ off + n ≤ a → m.read a = s.txbuf.read a) := by
  induction n generalizing off s with
  | zero => exact ⟨s.txbuf, rfl, by omega, by simp⟩
  | succ n ih =>
    have hs' : (s.writeByte .txbuf off (s.stageByte off)).sched = [] := hs
    obtain ⟨m, hm, hin, hout⟩ := ih (off + 1) (s.writeByte .txbuf off (s.stageByte off)) hs'
    refine ⟨m, ?_, ?_, ?_⟩
    · simp only [copyBytes, Block.bind_apply, bufRead_stage, between_undisturbed hs, bufWrite_apply,
        between_undisturbed hs', hm]
      rfl
    · intro a h1 h2
      by_cases ha : a = off
      · subst ha
        rw [hout a (by omega)]
        exact Memory.read_write_same _ _ _
      · exact hin a (by omega) (by omega)
    · intro a ha
      rw [hout a (by omega)]
      exact Memory.read_write_other _ _ (by omega)

/-- `send_frame()`, undisturbed (R126). -/
theorem sendFrame_undisturbed (s : State) (hs : s.sched = []) :
    ∃ m, sendFrame s = .ok () (State.armTx { s with txbuf := m }) ∧
      (∀ a, a < s.params.frameSize → m.read a = some (s.stageByte a)) ∧
      (∀ a, s.params.frameSize ≤ a → m.read a = s.txbuf.read a) := by
  obtain ⟨m, hm, hin, hout⟩ := copyBytes_undisturbed s.params.frameSize 0 s hs
  refine ⟨m, ?_, fun a ha => hin a (by omega) (by omega), fun a ha => hout a (by omega)⟩
  simp [sendFrame, Block.bind_apply, hm]

/-! ## What a result handed back, a trace event or the flags do not change -/

@[simp] theorem withResult_remaining (s : State) (r : Option Result) : (s.withResult r).remaining = s.remaining := rfl
@[simp] theorem withResult_takesDraw (s : State) (r : Option Result) : (s.withResult r).takesDraw = s.takesDraw := rfl
@[simp] theorem withResult_quiescent (s : State) (r : Option Result) : (s.withResult r).quiescent = s.quiescent := rfl
@[simp] theorem withResult_rxField (s : State) (r : Option Result) (off : Nat) :
    (s.withResult r).rxField off = s.rxField off := rfl
@[simp] theorem tookRemaining_rxField (s : State) (off : Nat) : s.tookRemaining.rxField off = s.rxField off := rfl
@[simp] theorem chkClrDone_rxField (s : State) (off : Nat) : s.chkClrDone.rxField off = s.rxField off := rfl
@[simp] theorem withResult_stageField (s : State) (r : Option Result) (off : Nat) :
    (s.withResult r).stageField off = s.stageField off := rfl

/-! ## POLL, undisturbed -/

theorem headerReady_iff (arrived : Nat) : headerReady arrived = true ↔ 4 ≤ arrived := by simp [headerReady]

theorem fastReady_iff (arrived : Nat) (len1 : Half) :
    fastReady arrived len1 = true ↔ len1 ≠ 0 ∧ 4 + len1.toNat ≤ arrived := by simp [fastReady]

theorem pollDropCompleted_undisturbed {s : State} (hs : s.sched = []) :
    pollDropCompleted s = .ok none ((s.emit .dropCompleted).armRx.setAnswered false) := by
  have h1 : (s.emit .dropCompleted).sched = [] := hs
  have h2 : ((s.emit .dropCompleted).armRx.setAnswered false).sched = [] := hs
  simp only [pollDropCompleted, Block.bind_apply, event_apply, between_undisturbed h1,
    rearmRx_undisturbed h1, between_undisturbed h2, Block.pure_apply]
  rfl

/-- POLL case 1a is the codec's `resolve_full` (R84, R111). -/
theorem pollLanded_undisturbed {s : State} {len1 len2 valid : Half} (hs : s.sched = [])
    (h1 : s.rxField len1Off = some len1) (h2 : s.rxField (len2Off s.params) = some len2)
    (hv : s.rxField (validOff s.params) = some valid) :
    pollLanded s = match resolveFull len1 valid len2 with
      | .len l => .ok (some ⟨l, true⟩) s
      | .invalid => .ok none ((s.emit .dropInvalid).armRx.setAnswered false) := by
  have he : (s.emit .dropInvalid).sched = [] := hs
  simp only [pollLanded, Block.bind_apply, readResolution_undisturbed hs h1 h2 hv]
  cases resolveFull len1 valid len2 with
  | len l => rfl
  | invalid =>
    simp only [Block.bind_apply, between_undisturbed hs, event_apply, between_undisturbed he,
      rearmRx_undisturbed he, Block.pure_apply]

/-- POLL case 1b is the codec's `fast_ready` (R83, R111). -/
theorem pollFast_undisturbed {s : State} {len1 : Half} (arrived : Nat) (hs : s.sched = [])
    (h1 : s.rxField len1Off = some len1) :
    pollFast arrived s = if fastReady arrived len1 = true then .ok (some ⟨len1.toNat, false⟩) (s.setAnswered true)
      else .ok none s := by
  simp only [pollFast, Block.bind_apply, rd16_rxField hs h1, Block.ite_apply, between_undisturbed hs,
    event_apply, Block.pure_apply]

/-- POLL case 2 is the codec's `resolve_completed` (R85, R111). -/
theorem pollCompleted_undisturbed {s : State} {len2 valid : Half} (hs : s.sched = [])
    (h2 : s.rxField (len2Off s.params) = some len2) (hv : s.rxField (validOff s.params) = some valid) :
    pollCompleted s = match resolveCompleted s.answeredFast valid len2 with
      | some l => .ok (some ⟨l, true⟩) (s.setAnswered false)
      | none => .ok none ((s.emit .dropCompleted).armRx.setAnswered false) := by
  simp only [pollCompleted, Block.bind_apply, look_apply, Block.ite_apply, rd16_rxField hs hv,
    between_undisturbed hs, rd16_rxField hs h2, event_apply, Block.pure_apply,
    pollDropCompleted_undisturbed hs, resolveCompleted]
  cases s.answeredFast
  · by_cases h : valid = 0#16 <;> simp [h]
  · simp

/-- POLL's hand-off, undisturbed (R86, R111). -/
theorem pollDeliver_undisturbed {s : State} {type : Half} (rmode : RMode) (f : Resolved) (hs : s.sched = [])
    (ht : s.rxField typeOff = some type) :
    pollDeliver rmode f s = .ok ()
      (if s.params.payloadCap < f.len then
        if s.params.overlenRearm = true ∧ f.rearm = true then
          ((s.emit (.dropOverlen f.len)).armRx.setAnswered false).withResult (some .noMsg)
        else (s.emit (.dropOverlen f.len)).withResult (some .noMsg)
      else
        ((s.setPhase (.dispatching type f.len rmode f.rearm)).emit (.dispatch type f.len rmode)).withResult
          (some .dispatched)) := by
  have h1 : (s.emit (.dropOverlen f.len)).sched = [] := hs
  have h2 : (s.setPhase (.dispatching type f.len rmode f.rearm)).sched = [] := hs
  simp only [pollDeliver, Block.bind_apply, look_apply, between_undisturbed hs, Block.ite_apply, event_apply,
    overLength_iff, between_undisturbed h1, rearmRx_undisturbed h1, complete_apply, rd16_rxField hs ht,
    between_undisturbed h2]
  simp only [Bool.and_eq_true]
  split_ifs <;> rfl

/-! POLL's detector, undisturbed, by the case its first test and the flag select (R111). -/

theorem pollDetect_landed {s : State} {arrived : Nat} (hs : s.sched = []) (h : 4 ≤ arrived)
    (ha : s.answeredFast = false) (hd : s.doneFlag = true) :
    pollDetect arrived s = pollLanded s.chkClrDone := by
  have h1 : s.chkClrDone.sched = [] := hs
  simp [pollDetect, Block.bind_apply, between_undisturbed h1, headerReady, h, ha, hd]

theorem pollDetect_fast {s : State} {arrived : Nat} (hs : s.sched = []) (h : 4 ≤ arrived)
    (ha : s.answeredFast = false) (hd : s.doneFlag = false) :
    pollDetect arrived s = pollFast arrived s.chkClrDone := by
  have h1 : s.chkClrDone.sched = [] := hs
  simp [pollDetect, Block.bind_apply, between_undisturbed h1, headerReady, h, ha, hd]

theorem pollDetect_completed {s : State} {arrived : Nat} (hs : s.sched = [])
    (h : ¬ (4 ≤ arrived ∧ s.answeredFast = false)) (hd : s.doneFlag = true) :
    pollDetect arrived s = pollCompleted s.chkClrDone := by
  have h1 : s.chkClrDone.sched = [] := hs
  have h2 : (headerReady arrived && !s.answeredFast) = false := by
    rw [Bool.eq_false_iff]; simpa [headerReady] using h
  simp only [pollDetect, Block.bind_apply, look_apply, callChkClrDone_apply, Block.ite_apply,
    between_undisturbed h1, h2, hd, Bool.false_eq_true, if_false, if_true]

theorem pollDetect_nothing {s : State} {arrived : Nat} (h : ¬ (4 ≤ arrived ∧ s.answeredFast = false))
    (hd : s.doneFlag = false) : pollDetect arrived s = .ok none s.chkClrDone := by
  have h2 : (headerReady arrived && !s.answeredFast) = false := by
    rw [Bool.eq_false_iff]; simpa [headerReady] using h
  simp only [pollDetect, Block.bind_apply, look_apply, callChkClrDone_apply, Block.ite_apply, h2, hd,
    Bool.false_eq_true, if_false, Block.pure_apply]

/-- POLL once its checks pass, undisturbed: the count, the detector, the hand-off (R111). -/
theorem execPoll_undisturbed {s : State} (rmode : RMode) (hr : s.Ready) (hs : s.sched = [])
    (hp : s.phase = .idle) (ha : s.armedSinceReset = true) :
    execPoll rmode s = .next (match pollDetect (s.params.frameSize - s.remaining) (s.withResult none).tookRemaining with
      | .ok none t => t.withResult (some .noMsg)
      | .ok (some f) t => finish (pollDeliver rmode f) t
      | .error _ t => t) := by
  rw [execPoll, hostRequest_of_ready hr]
  congr 1
  have h1 : (s.withResult none).tookRemaining.sched = [] := hs
  have hrem : (s.withResult none).remaining = s.remaining := rfl
  have hle : ¬ s.params.frameSize < s.remaining := Nat.not_lt.mpr (remaining_le s)
  simp only [finish, pollBody, pollRun, Block.bind_apply, look_apply, Block.ite_apply, callGetRemaining_apply,
    between_undisturbed h1, State.withResult_phase, hp, State.withResult_armedSinceReset, ha,
    State.withResult_params, hrem, if_neg hle, ne_eq, not_true_eq_false, if_false, Bool.true_eq_false]
  cases pollDetect (s.params.frameSize - s.remaining) (s.withResult none).tookRemaining with
  | ok a t => cases a <;> rfl
  | error e t => rfl
/-! ## The handshake and the reply fields, undisturbed -/

/-- A turn of ARM_AND_CLEAR_PENDING while a transfer is part-way has no event (R130, R131). -/
theorem acpTurn_waits {s : State} (h : s.quiescent = false) : acpTurn s = .ok () s := by
  simp [acpTurn, Block.bind_apply, h]

/-- A turn of ARM_AND_CLEAR_PENDING from a quiescent state completes it (R130). -/
theorem acpTurn_undisturbed {s : State} (hs : s.sched = []) (h : s.quiescent = true) :
    acpTurn s = .ok () (((s.armAndClear.setBusy .none).setHs .armed).withResult (some .completed)) := by
  have h1 : s.armAndClear.sched = [] := hs
  have h2 : (s.armAndClear.setBusy .none).sched = [] := hs
  simp [acpTurn, Block.bind_apply, h, between_undisturbed h1, between_undisturbed h2]

/-- A turn of WAIT_RX_AND_CLEAR with no completion raised has no event (R132). -/
theorem waitTurn_waits {s : State} (expected : Half) (h : s.doneFlag = false) :
    waitTurn expected s = .ok () s := by
  simp [waitTurn, Block.bind_apply, h]

/-- WAIT_RX_AND_CLEAR enters its wait and takes its first turn (R132). -/
theorem waitRxAndClearBody_undisturbed {s : State} (expected : Half) (hs : s.sched = [])
    (ha : s.armedSinceReset = true) :
    waitRxAndClearBody expected s = waitTurn expected ((s.setHs .wait).setBusy (.wait expected)) := by
  have h1 : (s.setHs .wait).sched = [] := hs
  have h2 : ((s.setHs .wait).setBusy (.wait expected)).sched = [] := hs
  simp [waitRxAndClearBody, Block.bind_apply, ha, between_undisturbed h1, between_undisturbed h2]

/-- A turn of WAIT_RX_AND_CLEAR decides by `resolve_any` on the whole frame (R88, R132). -/
theorem waitTurn_undisturbed {s : State} {len1 len2 valid type : Half} (expected : Half) (hs : s.sched = [])
    (hd : s.doneFlag = true) (ht : s.rxField typeOff = some type) (h1 : s.rxField len1Off = some len1)
    (h2 : s.rxField (len2Off s.params) = some len2) (hv : s.rxField (validOff s.params) = some valid) :
    waitTurn expected s = (match awaited s.params expected type (resolveAny len1 valid len2) with
      | some l => hsMatch type l
      | none => hsDiscard type (resolveAny len1 valid len2)) s.chkClrDone := by
  have hs1 : s.chkClrDone.sched = [] := hs
  have ht' : s.chkClrDone.rxField typeOff = some type := ht
  simp only [waitTurn, Block.bind_apply, look_apply, Block.ite_apply, hd, callChkClrDone_apply,
    between_undisturbed hs1, if_true, readResolution_undisturbed hs1 h1 h2 hv, rd16_rxField hs1 ht']
  rfl

/-- `match(t, L)`, undisturbed (R134). -/
theorem hsMatch_undisturbed {s : State} (t : Half) (l : Nat) (hs : s.sched = []) :
    hsMatch t l s = .ok () ((((((s.emit (.hsMatch t l)).setAnswered false).setPhase s.phase.markRearm).setHs
      .idle).setBusy .none).withResult (some (.matched t l))) := by
  have a1 : (s.emit (.hsMatch t l)).sched = [] := hs
  have a2 : ((s.emit (.hsMatch t l)).setAnswered false).sched = [] := hs
  have a3 : (((s.emit (.hsMatch t l)).setAnswered false).setPhase s.phase.markRearm).sched = [] := hs
  have a4 : ((((s.emit (.hsMatch t l)).setAnswered false).setPhase s.phase.markRearm).setHs .idle).sched = [] := hs
  simp [hsMatch, Block.bind_apply, between_undisturbed a1, between_undisturbed a2, between_undisturbed a3,
    between_undisturbed a4]

/-- `discard(t, r)`, undisturbed (R133). -/
theorem hsDiscard_undisturbed {s : State} (t : Half) (r : Resolution) (hs : s.sched = []) :
    hsDiscard t r s = .ok () ((s.emit (.hsDiscard t r)).armRx.setAnswered false) := by
  have a1 : (s.emit (.hsDiscard t r)).sched = [] := hs
  simp [hsDiscard, Block.bind_apply, between_undisturbed a1, rearmRx_undisturbed a1]

/-- The four reply fields, undisturbed: eight byte writes of STAGE and nothing else (R90, R119). -/
theorem writeReplyFields_undisturbed {s : State} (type lr : Half) (hs : s.sched = []) :
    writeReplyFields type lr s = .ok () { s with
      stage := (((((((s.stage.write typeOff (loByte type)).write (typeOff + 1) (hiByte type)).write len1Off
        (loByte lr)).write (len1Off + 1) (hiByte lr)).write (len2Off s.params) (loByte lr)).write
          (len2Off s.params + 1) (hiByte lr)).write (validOff s.params) (loByte Config.replyValid)).write
            (validOff s.params + 1) (hiByte Config.replyValid) } := by
  have k : ∀ (m : Memory), State.sched { s with stage := m } = [] := fun _ => hs
  have w : ∀ (m : Memory) (off : Nat) (v : Half), wr16 .stage off v { s with stage := m } =
      .ok () { s with stage := (m.write off (loByte v)).write (off + 1) (hiByte v) } :=
    fun m off v => wr16_undisturbed (k m)
  have w0 : ∀ (off : Nat) (v : Half), wr16 .stage off v s =
      .ok () { s with stage := (s.stage.write off (loByte v)).write (off + 1) (hiByte v) } :=
    fun off v => w s.stage off v
  simp only [writeReplyFields, Block.bind_apply, look_apply, w0, w, between_undisturbed (k _)]

end Sys2Proof.Machine
end

