-- ==== Sys2Proof/Laws/Interleaving.lean ====
section
/-! SUPPORT. What whole requests keep under any interleaving, given what each of their events keeps: one lemma per
request body, so that a proof about every interleaving lists events and never unfolds a body. -/

namespace Sys2Proof.Machine

variable {P : State → Prop} {α : Type}

/-- The events and environment steps common to most requests keep `P`. -/
structure EventsKeep (P : State → Prop) : Prop where
  env : EnvKeeps P
  raise : ∀ s r, P s → P (s.raise r)
  result : ∀ s r, P s → P (s.withResult r)
  emit : ∀ s e, P s → P (s.emit e)
  answered : ∀ s b, P s → P (s.setAnswered b)
  arm : ∀ s, P s → P s.armRx
  took : ∀ s, P s → P s.tookRemaining
  chk : ∀ s, P s → P s.chkClrDone

/-! ## The parameters stay what they are -/

theorem EnvKeeps.pin (h : EnvKeeps P) (p : Params) : EnvKeeps fun s => P s ∧ s.params = p where
  env s e hs := ⟨h.env s e hs.1, by simpa using hs.2⟩
  sched s l hs := ⟨h.sched s l hs.1, hs.2⟩

theorem EventsKeep.pin (h : EventsKeep P) (p : Params) : EventsKeep fun s => P s ∧ s.params = p where
  env := h.env.pin p
  raise s r hs := ⟨h.raise s r hs.1, hs.2⟩
  result s r hs := ⟨h.result s r hs.1, hs.2⟩
  emit s e hs := ⟨h.emit s e hs.1, hs.2⟩
  answered s b hs := ⟨h.answered s b hs.1, hs.2⟩
  arm s hs := ⟨h.arm s hs.1, hs.2⟩
  took s hs := ⟨h.took s hs.1, hs.2⟩
  chk s hs := ⟨h.chk s hs.1, hs.2⟩

/-- What follows a look at the parameters may use that they stay. -/
theorem keeps_look_params {f : Params → Block α}
    (hf : ∀ p, Keeps (fun s => P s ∧ s.params = p) (f p)) : Keeps P (look State.params >>= f) := by
  intro s hs
  have := hf s.params s ⟨hs, rfl⟩
  show match f s.params s with
    | .ok _ t => P t
    | .error _ t => P t
  cases h : f s.params s <;> rw [h] at this <;> exact this.1

/-! ## The receive path -/

theorem EventsKeep.rd16 (h : EventsKeep P) (b : Buffer) (off : Nat) : Keeps P (rd16 b off) :=
  keeps_rd16 h.env fun s _ => h.raise s _

theorem EventsKeep.rearm (h : EventsKeep P) : Keeps P rearmRx :=
  keeps_rearmRx h.env h.arm fun s => h.answered s _

theorem EventsKeep.complete (h : EventsKeep P) (r : Result) : Keeps P (complete r) :=
  keeps_complete fun s => h.result s _

theorem keeps_readResolution (h : EventsKeep P) : Keeps P readResolution :=
  keeps_look_params fun p => keeps_bind ((h.pin p).rd16 _ _) fun _ => keeps_ite (keeps_pure _ _)
    (keeps_bind (keeps_between (h.pin p).env) fun _ => keeps_bind ((h.pin p).rd16 _ _) fun _ => keeps_ite
      (keeps_bind (keeps_between (h.pin p).env) fun _ => keeps_bind ((h.pin p).rd16 _ _) fun _ => keeps_pure _ _)
      (keeps_pure _ _))

theorem keeps_pollLanded (h : EventsKeep P) : Keeps P pollLanded := by
  refine keeps_bind (keeps_readResolution h) fun r => ?_
  cases r with
  | len l => exact keeps_pure _ _
  | invalid =>
    exact keeps_bind (keeps_between h.env) fun _ => keeps_bind (keeps_event fun s => h.emit s _) fun _ =>
      keeps_bind (keeps_between h.env) fun _ => keeps_bind h.rearm fun _ => keeps_pure _ _

theorem keeps_pollFast (h : EventsKeep P) (arrived : Nat) : Keeps P (pollFast arrived) :=
  keeps_bind (h.rd16 _ _) fun _ => keeps_ite
    (keeps_bind (keeps_between h.env) fun _ => keeps_bind (keeps_event fun s => h.answered s _) fun _ =>
      keeps_pure _ _)
    (keeps_pure _ _)

theorem keeps_pollDropCompleted (h : EventsKeep P) : Keeps P pollDropCompleted :=
  keeps_bind (keeps_event fun s => h.emit s _) fun _ => keeps_bind (keeps_between h.env) fun _ =>
    keeps_bind h.rearm fun _ => keeps_bind (keeps_between h.env) fun _ =>
      keeps_bind (keeps_event fun s => h.answered s _) fun _ => keeps_pure _ _

theorem keeps_pollCompleted (h : EventsKeep P) : Keeps P pollCompleted :=
  keeps_look_params fun p => keeps_bind (keeps_look _ _) fun _ => keeps_ite (keeps_pollDropCompleted (h.pin p))
    (keeps_bind ((h.pin p).rd16 _ _) fun _ => keeps_bind (keeps_between (h.pin p).env) fun _ => keeps_ite
      (keeps_bind ((h.pin p).rd16 _ _) fun _ => keeps_bind (keeps_between (h.pin p).env) fun _ =>
        keeps_bind (keeps_event fun s => (h.pin p).answered s _) fun _ => keeps_pure _ _)
      (keeps_pollDropCompleted (h.pin p)))

theorem keeps_pollDetect (h : EventsKeep P) (arrived : Nat) : Keeps P (pollDetect arrived) :=
  keeps_bind (keeps_look _ _) fun _ => keeps_bind (keeps_callChkClrDone h.chk) fun _ => keeps_ite
    (keeps_bind (keeps_between h.env) fun _ => keeps_ite (keeps_pollLanded h) (keeps_pollFast h _))
    (keeps_ite (keeps_bind (keeps_between h.env) fun _ => keeps_pollCompleted h) (keeps_pure _ _))

theorem keeps_pollDeliver (h : EventsKeep P)
    (hp : ∀ s t l m r, P s → l ≤ s.params.payloadCap → P (s.setPhase (.dispatching t l m r)))
    (rmode : RMode) (f : Resolved) : Keeps P (pollDeliver rmode f) := by
  refine keeps_look_params fun p => keeps_bind (keeps_between (h.pin p).env) fun _ => ?_
  by_cases ho : overLength p f.len = true
  · rw [if_pos ho]
    exact keeps_bind (keeps_event fun s => (h.pin p).emit s _) fun _ => keeps_ite
      (keeps_bind (keeps_between (h.pin p).env) fun _ => keeps_bind (h.pin p).rearm fun _ =>
        (h.pin p).complete _) ((h.pin p).complete _)
  · rw [if_neg ho]
    refine keeps_bind ((h.pin p).rd16 _ _) fun t => keeps_bind (keeps_between (h.pin p).env) fun _ =>
      keeps_bind (keeps_event fun s hs => ⟨hp s _ _ _ _ hs.1 ?_, hs.2⟩) fun _ =>
        keeps_bind (keeps_between (h.pin p).env) fun _ =>
          keeps_bind (keeps_event fun s => (h.pin p).emit s _) fun _ => (h.pin p).complete _
    rw [overLength_iff] at ho
    rw [hs.2]
    omega

/-- POLL keeps what its events keep; a dispatch is never over-length (R86, R111). -/
theorem keeps_pollBody (h : EventsKeep P)
    (hp : ∀ s t l m r, P s → l ≤ s.params.payloadCap → P (s.setPhase (.dispatching t l m r)))
    (rmode : RMode) : Keeps P (pollBody rmode) := by
  refine keeps_bind (keeps_look _ _) fun ph => keeps_bind (keeps_look _ _) fun armed =>
    keeps_ite (keeps_raise fun s => h.raise s _) (keeps_ite (keeps_raise fun s => h.raise s _) ?_)
  refine keeps_bind (keeps_look _ _) fun p => keeps_bind (keeps_callGetRemaining h.took) fun rem =>
    keeps_bind (keeps_between h.env) fun _ => keeps_ite (keeps_raise fun s => h.raise s _)
      (keeps_bind (keeps_pollDetect h _) fun found => ?_)
  cases found with
  | none => exact h.complete _
  | some f => exact keeps_pollDeliver h hp rmode f

/-- BEGIN_RECEIVE keeps what its events keep (R109). -/
theorem keeps_beginReceiveBody (h : EventsKeep P) : Keeps P beginReceiveBody :=
  keeps_bind h.rearm fun _ => h.complete _

/-! ## The transmit path -/

/-- The copy keeps what writes of TXBUF below `F` keep (R126). -/
theorem keeps_copyBytes (h : EnvKeeps P) (hw : ∀ s off b, P s → off < s.params.frameSize →
      P (s.writeByte .txbuf off b)) (n off : Nat) :
    Keeps (fun s => P s ∧ off + n ≤ s.params.frameSize) (copyBytes off n) := by
  induction n generalizing off with
  | zero => exact keeps_pure _ _
  | succ n ih =>
    have he : EnvKeeps fun s => P s ∧ off + (n + 1) ≤ s.params.frameSize :=
      ⟨fun s e hs => ⟨h.env s e hs.1, by simpa using hs.2⟩, fun s l hs => ⟨h.sched s l hs.1, hs.2⟩⟩
    refine keeps_bind (fun s hs => hs) fun b => keeps_bind (keeps_between he) fun _ =>
      keeps_bind (keeps_bufWrite fun s hs => ⟨hw s off b hs.1 (by omega), hs.2⟩) fun _ =>
        keeps_bind (keeps_between he) fun _ => ?_
    have e : off + (n + 1) = off + 1 + n := by omega
    rw [e]
    exact ih (off + 1)

/-- `send_frame()` keeps what the copy and ARM_TX keep (R126). -/
theorem keeps_sendFrame (h : EnvKeeps P)
    (hw : ∀ s off b, P s → off < s.params.frameSize → P (s.writeByte .txbuf off b))
    (ha : ∀ s, P s → P s.armTx) : Keeps P sendFrame := by
  intro s hs
  have hc := keeps_copyBytes h hw s.params.frameSize 0 s ⟨hs, by omega⟩
  simp only [sendFrame, Block.bind_apply, look_apply]
  cases hx : copyBytes 0 s.params.frameSize s with
  | ok a t => rw [hx] at hc; exact ha t hc.1
  | error e t => rw [hx] at hc; exact hc.1

/-- DISPATCH_RETURN's four fields keep what writes of STAGE below `F` keep (R119). -/
theorem keeps_writeReplyFields (h : EnvKeeps P) (hok : ∀ s, P s → s.params.ok = true)
    (hw : ∀ s off b, P s → off < s.params.frameSize → P (s.writeByte .stage off b)) (type lr : Half) :
    Keeps P (writeReplyFields type lr) := by
  refine keeps_look_params fun p => ?_
  have hF : ∀ s, P s ∧ s.params = p → 12 ≤ p.frameSize := by
    intro s hs
    have := hok s hs.1
    simp only [Params.ok, Bool.and_eq_true, decide_eq_true_eq, hs.2] at this
    omega
  have k : ∀ off v, off + 1 < p.frameSize ∨ (off = len2Off p ∨ off = validOff p ∨ off = 0 ∨ off = 2) →
      Keeps (fun s => P s ∧ s.params = p) (wr16 .stage off v) := by
    intro off v ho
    refine keeps_wr16 (h.pin p) (fun s b hs => ⟨hw s _ _ hs.1 ?_, hs.2⟩) (fun s b hs => ⟨hw s _ _ hs.1 ?_, hs.2⟩)
    all_goals
      have := hF s hs
      simp only [len2Off, validOff] at ho
      rw [hs.2]
      omega
  exact keeps_bind (k _ _ (by simp [typeOff])) fun _ => keeps_bind (keeps_between (h.pin p)) fun _ =>
    keeps_bind (k _ _ (by simp [len1Off])) fun _ => keeps_bind (keeps_between (h.pin p)) fun _ =>
      keeps_bind (k _ _ (by simp)) fun _ => keeps_bind (keeps_between (h.pin p)) fun _ => k _ _ (by simp)

/-! ## The handshake -/

/-- ARM_AND_CLEAR_PENDING's turn keeps what its events keep; it arms from a quiescent state only (R130, R131). -/
theorem keeps_acpTurn (h : EnvKeeps P) (ha : ∀ s, P s → s.quiescent = true → P s.armAndClear)
    (hb : ∀ s, P s → P (s.setBusy .none)) (hh : ∀ s, P s → P (s.setHs .armed))
    (hr : ∀ s r, P s → P (s.withResult r)) : Keeps P acpTurn := by
  intro s hs
  have key : Keeps P (do between; event fun s => s.setBusy .none; between; event fun s => s.setHs .armed
                         complete .completed) :=
    keeps_bind (keeps_between h) fun _ => keeps_bind (keeps_event hb) fun _ => keeps_bind (keeps_between h) fun _ =>
      keeps_bind (keeps_event hh) fun _ => keeps_complete fun s => hr s _
  by_cases hq : s.quiescent = true
  · simpa [acpTurn, Block.bind_apply, hq] using key s.armAndClear (ha s hs hq)
  · simpa [acpTurn, Block.bind_apply, hq] using hs

/-- WAIT_RX_AND_CLEAR's turn keeps what its events keep (R132 to R134). -/
theorem keeps_waitTurn (h : EventsKeep P) (hp : ∀ s, P s → P (s.setPhase s.phase.markRearm))
    (hb : ∀ s, P s → P (s.setBusy .none)) (hh : ∀ s, P s → P (s.setHs .idle)) (expected : Half) :
    Keeps P (waitTurn expected) := by
  refine keeps_bind (keeps_look _ _) fun p => keeps_bind (keeps_look _ _) fun flag => keeps_ite ?_ (keeps_pure _ _)
  refine keeps_bind (keeps_callChkClrDone h.chk) fun _ => keeps_bind (keeps_between h.env) fun _ =>
    keeps_bind (keeps_readResolution h) fun r => keeps_bind (keeps_between h.env) fun _ =>
      keeps_bind (h.rd16 _ _) fun t => keeps_bind (keeps_between h.env) fun _ => ?_
  cases awaited p expected t r with
  | some l =>
    exact keeps_bind (keeps_event fun s => h.emit s _) fun _ => keeps_bind (keeps_between h.env) fun _ =>
      keeps_bind (keeps_event fun s => h.answered s _) fun _ => keeps_bind (keeps_between h.env) fun _ =>
        keeps_bind (keeps_event hp) fun _ => keeps_bind (keeps_between h.env) fun _ =>
          keeps_bind (keeps_event hh) fun _ => keeps_bind (keeps_between h.env) fun _ =>
            keeps_bind (keeps_event hb) fun _ => h.complete _
  | none =>
    exact keeps_bind (keeps_event fun s => h.emit s _) fun _ => keeps_bind (keeps_between h.env) fun _ => h.rearm

/-! ## From one property to another -/

/-- From a state with `P`, the sequence ends in a state with `Q`, or is stopped in a state with `R`. -/
def Leads (P Q R : State → Prop) (x : Block α) : Prop :=
  ∀ s, P s → match x s with
    | .ok _ t => Q t
    | .error _ t => R t

variable {Q R : State → Prop} {β : Type}

theorem Keeps.leads {x : Block α} (h : Keeps P x) (hr : ∀ s, P s → R s) : Leads P P R x := by
  intro s hs
  have := h s hs
  cases hx : x s <;> rw [hx] at this
  · exact this
  · exact hr _ this

theorem leads_weaken {P' Q' : State → Prop} {x : Block α} (h : Leads P Q R x) (hp : ∀ s, P' s → P s)
    (hq : ∀ s, Q s → Q' s) : Leads P' Q' R x := by
  intro s hs
  have := h s (hp s hs)
  cases hx : x s <;> rw [hx] at this
  · exact hq _ this
  · exact this

theorem leads_bind {S : State → Prop} {x : Block α} {f : α → Block β} (hx : Leads P S R x)
    (hf : ∀ a, Leads S Q R (f a)) : Leads P Q R (x >>= f) := by
  intro s hs
  have h1 := hx s hs
  rw [Block.bind_apply]
  cases h : x s with
  | ok a t => rw [h] at h1; exact hf a t h1
  | error e t => rw [h] at h1; exact h1

theorem leads_look {g : State → α} {f : α → Block β} (hf : ∀ a, Leads (fun s => P s ∧ g s = a) Q R (f a)) :
    Leads P Q R (look g >>= f) := fun s hs => hf (g s) s ⟨hs, rfl⟩

theorem leads_event {f : State → State} (h : ∀ s, P s → Q (f s)) : Leads P Q R (event f) := h

theorem leads_raise {r : FaultRecord} (h : ∀ s, P s → R (s.raise r)) : Leads P Q R (raiseFault r : Block α) := h

theorem leads_ite {c : Prop} [Decidable c] {x y : Block α} (hx : c → Leads P Q R x) (hy : ¬ c → Leads P Q R y) :
    Leads P Q R (if c then x else y) := by split <;> [exact hx ‹_›; exact hy ‹_›]

/-- What a request leaves has `Q` where both its ends have it. -/
theorem finish_leads {x : Block Unit} (h : Leads P Q Q x) {s : State} (hs : P s) : Q (finish x s) := by
  have := h s hs
  unfold finish
  cases hx : x s <;> rw [hx] at this <;> exact this

end Sys2Proof.Machine
end

