-- ==== Sys2Proof/Laws/Mode.lean ====
section
/-! SUPPORT. What does not look at the Restriction Mode (R120): a sequence of events is blind to it when it does from a
state with another `d_rmode` what it does from the state itself, with that `d_rmode`. -/

namespace Sys2Proof.Machine

variable {α β : Type} (m : RMode)

/-! ## Fields and conditions -/

@[simp] theorem withDispatchMode_sched (s : State) : (s.withDispatchMode m).sched = s.sched := rfl
@[simp] theorem withDispatchMode_params (s : State) : (s.withDispatchMode m).params = s.params := rfl
@[simp] theorem withDispatchMode_fault (s : State) : (s.withDispatchMode m).fault = s.fault := rfl
@[simp] theorem withDispatchMode_busyOp (s : State) : (s.withDispatchMode m).busyOp = s.busyOp := rfl
@[simp] theorem withDispatchMode_inputs (s : State) : (s.withDispatchMode m).inputs = s.inputs := rfl
@[simp] theorem withDispatchMode_driverCall (s : State) : (s.withDispatchMode m).driverCall = s.driverCall := rfl

@[simp] theorem withDispatchMode_readByte (s : State) (b : Buffer) (off : Nat) :
    (s.withDispatchMode m).readByte b off = s.readByte b off := by cases b <;> rfl

theorem withDispatchMode_writeByte (s : State) (b : Buffer) (off : Nat) (v : Byte) :
    (s.withDispatchMode m).writeByte b off v = (s.writeByte b off v).withDispatchMode m := by cases b <;> rfl

theorem withDispatchMode_setPhase_idle (s : State) :
    (s.withDispatchMode m).setPhase .idle = (s.setPhase .idle).withDispatchMode m := rfl

theorem withDispatchMode_markRearm (s : State) :
    (s.withDispatchMode m).setPhase (s.withDispatchMode m).phase.markRearm =
      (s.setPhase s.phase.markRearm).withDispatchMode m := by
  cases h : s.phase <;> simp [State.withDispatchMode, State.setPhase, h, Phase.markRearm]

/-! ## Environment steps -/

/-- An environment step does not look at the Restriction Mode. -/
theorem withDispatchMode_envStep (s : State) (e : EnvStep) :
    (s.withDispatchMode m).envStep e = (s.envStep e).withDispatchMode m := by
  have key {c : Prop} [Decidable c] {x y x' y' : State} (hx : x' = x.withDispatchMode m)
      (hy : y' = y.withDispatchMode m) : (if c then x' else y') = (if c then x else y).withDispatchMode m := by
    split <;> assumption
  cases e with
  | rxLand b => exact key rfl (key rfl rfl)
  | rxComplete => exact key rfl (key rfl rfl)
  | ghostFire => exact key rfl (key rfl rfl)
  | ghostDrop => exact key rfl (key rfl rfl)
  | txByte => exact key rfl (key (key rfl rfl) rfl)
  | timeout => exact key rfl (key rfl rfl)

theorem withDispatchMode_runEnv (es : List EnvStep) (s : State) :
    (s.withDispatchMode m).runEnv es = (s.runEnv es).withDispatchMode m := by
  induction es generalizing s with
  | nil => rfl
  | cons e es ih => rw [State.runEnv, withDispatchMode_envStep, ih]; rfl

/-! ## Sequences of events -/

/-- The sequence does not look at the Restriction Mode. -/
def ModeBlind (x : Block α) : Prop :=
  ∀ s, x (s.withDispatchMode m) = match x s with
    | .ok a t => .ok a (t.withDispatchMode m)
    | .error e t => .error e (t.withDispatchMode m)

variable {m}

theorem modeBlind_pure (a : α) : ModeBlind m (pure a : Block α) := fun _ => rfl

theorem modeBlind_bind {x : Block α} {f : α → Block β} (hx : ModeBlind m x) (hf : ∀ a, ModeBlind m (f a)) :
    ModeBlind m (x >>= f) := by
  intro s
  rw [Block.bind_apply, Block.bind_apply, hx s]
  cases x s with
  | ok a t => exact hf a t
  | error e t => rfl

theorem modeBlind_ite {c : Prop} [Decidable c] {x y : Block α} (hx : ModeBlind m x) (hy : ModeBlind m y) :
    ModeBlind m (if c then x else y) := by split <;> assumption

theorem modeBlind_look {g : State → α} (h : ∀ s, g (s.withDispatchMode m) = g s) : ModeBlind m (look g) := by
  intro s
  simp [h]

theorem modeBlind_event {f : State → State}
    (h : ∀ s, f (s.withDispatchMode m) = (f s).withDispatchMode m) : ModeBlind m (event f) := by
  intro s
  simp [h]

theorem modeBlind_raise (r : FaultRecord) : ModeBlind m (raiseFault r : Block α) := fun _ => rfl

theorem modeBlind_complete (r : Result) : ModeBlind m (complete r) := fun _ => rfl

theorem modeBlind_chkClrDone : ModeBlind m callChkClrDone := fun _ => rfl

theorem modeBlind_between : ModeBlind m between := by
  intro s
  cases h : s.sched with
  | nil => simp [between, h]
  | cons burst rest =>
    have run (u : State) (hu : u.sched = burst :: rest) : between u =
        if (State.runEnv { u with sched := rest } burst).fault.isSome then
          .error .faulted (State.runEnv { u with sched := rest } burst)
        else if (State.runEnv { u with sched := rest } burst).busyOp ≠ u.busyOp then
          .error .timedOut (State.runEnv { u with sched := rest } burst)
        else .ok () (State.runEnv { u with sched := rest } burst) := by simp [between, hu]
    rw [run _ h, run (s.withDispatchMode m) h, show ({ s.withDispatchMode m with sched := rest } : State) =
      State.withDispatchMode m { s with sched := rest } from rfl, withDispatchMode_runEnv]
    generalize State.runEnv { s with sched := rest } burst = u
    by_cases h1 : u.fault.isSome = true <;> by_cases h2 : u.busyOp = s.busyOp <;> simp [h1, h2]

theorem modeBlind_bufRead (b : Buffer) (off : Nat) : ModeBlind m (bufRead b off) := by
  intro s
  cases h : s.readByte b off with
  | some v => rw [bufRead_ok h, bufRead_ok (by simpa using h)]
  | none => rw [bufRead_fault h, bufRead_fault (by simpa using h)]; rfl

theorem modeBlind_bufWrite (b : Buffer) (off : Nat) (v : Byte) : ModeBlind m (bufWrite b off v) :=
  modeBlind_event fun s => withDispatchMode_writeByte m s b off v

theorem modeBlind_rd16 (b : Buffer) (off : Nat) : ModeBlind m (rd16 b off) :=
  modeBlind_bind (modeBlind_bufRead _ _) fun _ => modeBlind_bind modeBlind_between fun _ =>
    modeBlind_bind (modeBlind_bufRead _ _) fun _ => modeBlind_pure _

theorem modeBlind_wr16 (b : Buffer) (off : Nat) (v : Half) : ModeBlind m (wr16 b off v) :=
  modeBlind_bind (modeBlind_bufWrite _ _ _) fun _ => modeBlind_bind modeBlind_between fun _ =>
    modeBlind_bufWrite _ _ _

theorem modeBlind_rearmRx : ModeBlind m rearmRx :=
  modeBlind_bind (modeBlind_event fun _ => rfl) fun _ => modeBlind_bind modeBlind_between fun _ =>
    modeBlind_event fun _ => rfl

theorem modeBlind_readResolution : ModeBlind m readResolution :=
  modeBlind_bind (modeBlind_look fun _ => rfl) fun _ => modeBlind_bind (modeBlind_rd16 _ _) fun _ =>
    modeBlind_ite (modeBlind_pure _) (modeBlind_bind modeBlind_between fun _ =>
      modeBlind_bind (modeBlind_rd16 _ _) fun _ => modeBlind_ite
        (modeBlind_bind modeBlind_between fun _ => modeBlind_bind (modeBlind_rd16 _ _) fun _ => modeBlind_pure _)
        (modeBlind_pure _))

theorem modeBlind_writeReplyFields (type lr : Half) : ModeBlind m (writeReplyFields type lr) :=
  modeBlind_bind (modeBlind_look fun _ => rfl) fun _ =>
    modeBlind_bind (modeBlind_wr16 _ _ _) fun _ => modeBlind_bind modeBlind_between fun _ =>
      modeBlind_bind (modeBlind_wr16 _ _ _) fun _ => modeBlind_bind modeBlind_between fun _ =>
        modeBlind_bind (modeBlind_wr16 _ _ _) fun _ => modeBlind_bind modeBlind_between fun _ =>
          modeBlind_wr16 _ _ _

theorem modeBlind_copyBytes (n off : Nat) : ModeBlind m (copyBytes off n) := by
  induction n generalizing off with
  | zero => exact modeBlind_pure _
  | succ n ih =>
    exact modeBlind_bind (modeBlind_bufRead _ _) fun _ => modeBlind_bind modeBlind_between fun _ =>
      modeBlind_bind (modeBlind_bufWrite _ _ _) fun _ => modeBlind_bind modeBlind_between fun _ => ih _

theorem modeBlind_sendFrame : ModeBlind m sendFrame :=
  modeBlind_bind (modeBlind_look fun _ => rfl) fun _ => modeBlind_bind (modeBlind_copyBytes _ _) fun _ =>
    modeBlind_event fun _ => rfl

/-! ## The bodies of the requests -/

theorem modeBlind_beginReceiveBody : ModeBlind m beginReceiveBody :=
  modeBlind_bind modeBlind_rearmRx fun _ => modeBlind_complete _

theorem modeBlind_sendAccepted : ModeBlind m sendAccepted :=
  modeBlind_bind modeBlind_sendFrame fun _ => modeBlind_bind (modeBlind_look fun _ => rfl) fun _ => modeBlind_ite
    (modeBlind_bind modeBlind_between fun _ => modeBlind_bind (modeBlind_event fun _ => rfl) fun _ =>
      modeBlind_complete _) (modeBlind_complete _)

theorem modeBlind_sendBody : ModeBlind m sendBody := by
  intro s
  have key : ModeBlind m (if s.txBusy then raiseFault (.txBusy s.txSent) else do
      let len1 ← rd16 .stage len1Off
      between
      let len2 ← rd16 .stage (len2Off s.params)
      between
      let valid ← rd16 .stage (validOff s.params)
      between
      if txFrameOk s.params len1 len2 valid then sendAccepted else raiseFault (.badTxFrame len1 len2 valid)) :=
    modeBlind_ite (modeBlind_raise _) (modeBlind_bind (modeBlind_rd16 _ _) fun _ =>
      modeBlind_bind modeBlind_between fun _ => modeBlind_bind (modeBlind_rd16 _ _) fun _ =>
        modeBlind_bind modeBlind_between fun _ => modeBlind_bind (modeBlind_rd16 _ _) fun _ =>
          modeBlind_bind modeBlind_between fun _ => modeBlind_ite modeBlind_sendAccepted (modeBlind_raise _))
  exact key s

theorem modeBlind_returnRun (dType : Half) (dRearm reply : Bool) (lr : Half) :
    ModeBlind m (returnRun dType dRearm reply lr) := by
  have idle : ModeBlind m (do event fun s => s.setPhase .idle; complete .completed) :=
    modeBlind_bind (modeBlind_event fun s => withDispatchMode_setPhase_idle m s) fun _ => modeBlind_complete _
  have send : ModeBlind m (do
      writeReplyFields dType lr
      between
      sendFrame
      between
      event fun s => s.setPhase .idle
      complete .completed) :=
    modeBlind_bind (modeBlind_writeReplyFields _ _) fun _ => modeBlind_bind modeBlind_between fun _ =>
      modeBlind_bind modeBlind_sendFrame fun _ => modeBlind_bind modeBlind_between fun _ => idle
  refine modeBlind_bind (modeBlind_event fun _ => rfl) fun _ => modeBlind_bind modeBlind_between fun _ => ?_
  refine modeBlind_ite ?_ (modeBlind_ite send idle)
  exact modeBlind_bind modeBlind_rearmRx fun _ => modeBlind_bind modeBlind_between fun _ => modeBlind_ite send idle

theorem modeBlind_dispatchReturnBody (reply : Bool) (lr : Half) : ModeBlind m (dispatchReturnBody reply lr) := by
  intro s
  by_cases hw : reply = false ∧ lr ≠ 0
  · simp only [dispatchReturnBody, Block.bind_apply, look_apply, if_pos hw]
    rfl
  · have key : ∀ dType dRearm, ModeBlind m (if reply = true ∧ s.txBusy = true then raiseFault (.txBusy s.txSent)
        else if reply = true ∧ s.params.payloadCap < lr.toNat then raiseFault (.badTxFrame lr lr Config.replyValid)
        else returnRun dType dRearm reply lr) := fun dType dRearm =>
      modeBlind_ite (modeBlind_raise _) (modeBlind_ite (modeBlind_raise _) (modeBlind_returnRun _ _ _ _))
    cases hp : s.phase with
    | idle =>
      have hp' : (s.withDispatchMode m).phase = .idle := by simp [State.withDispatchMode, hp]
      simp only [dispatchReturnBody, Block.bind_apply, look_apply, id, if_neg hw, hp, hp']
      rfl
    | dispatching t l n r =>
      have hp' : (s.withDispatchMode m).phase = .dispatching t l m r := by simp [State.withDispatchMode, hp]
      simp only [dispatchReturnBody, Block.bind_apply, look_apply, id, if_neg hw, hp, hp']
      exact key t r s

theorem modeBlind_acpTurn : ModeBlind m acpTurn :=
  modeBlind_bind (modeBlind_look fun _ => rfl) fun _ => modeBlind_ite
    (modeBlind_bind (modeBlind_event fun _ => rfl) fun _ => modeBlind_bind modeBlind_between fun _ =>
      modeBlind_bind (modeBlind_event fun _ => rfl) fun _ => modeBlind_bind modeBlind_between fun _ =>
        modeBlind_bind (modeBlind_event fun _ => rfl) fun _ => modeBlind_complete _)
    (modeBlind_pure _)

theorem modeBlind_waitTurn (expected : Half) : ModeBlind m (waitTurn expected) := by
  refine modeBlind_bind (modeBlind_look fun _ => rfl) fun p => modeBlind_bind (modeBlind_look fun _ => rfl) fun _ =>
    modeBlind_ite (modeBlind_bind modeBlind_chkClrDone fun _ => modeBlind_bind modeBlind_between fun _ =>
      modeBlind_bind modeBlind_readResolution fun r => modeBlind_bind modeBlind_between fun _ =>
        modeBlind_bind (modeBlind_rd16 _ _) fun t => modeBlind_bind modeBlind_between fun _ => ?_) (modeBlind_pure _)
  cases awaited p expected t r with
  | some l =>
    exact modeBlind_bind (modeBlind_event fun _ => rfl) fun _ => modeBlind_bind modeBlind_between fun _ =>
      modeBlind_bind (modeBlind_event fun _ => rfl) fun _ => modeBlind_bind modeBlind_between fun _ =>
        modeBlind_bind (modeBlind_event fun s => withDispatchMode_markRearm m s) fun _ =>
          modeBlind_bind modeBlind_between fun _ => modeBlind_bind (modeBlind_event fun _ => rfl) fun _ =>
            modeBlind_bind modeBlind_between fun _ => modeBlind_bind (modeBlind_event fun _ => rfl) fun _ =>
              modeBlind_complete _
  | none =>
    exact modeBlind_bind (modeBlind_event fun _ => rfl) fun _ => modeBlind_bind modeBlind_between fun _ =>
      modeBlind_rearmRx

theorem modeBlind_armAndClearPendingBody : ModeBlind m armAndClearPendingBody :=
  modeBlind_bind (modeBlind_event fun _ => rfl) fun _ => modeBlind_bind modeBlind_between fun _ => modeBlind_acpTurn

theorem modeBlind_waitRxAndClearBody (expected : Half) : ModeBlind m (waitRxAndClearBody expected) :=
  modeBlind_bind (modeBlind_look fun _ => rfl) fun _ => modeBlind_ite (modeBlind_raise _)
    (modeBlind_bind (modeBlind_event fun _ => rfl) fun _ => modeBlind_bind modeBlind_between fun _ =>
      modeBlind_bind (modeBlind_event fun _ => rfl) fun _ => modeBlind_bind modeBlind_between fun _ =>
        modeBlind_waitTurn _)

/-! ## Steps -/

theorem mapNext_guarded (s : State) (o : Host.Outcome State Fault Refusal) :
    guarded (s.withDispatchMode m) (mapNext (State.withDispatchMode m) o) =
      mapNext (State.withDispatchMode m) (guarded s o) := by
  have hm : (s.withDispatchMode m).params.ok = s.params.ok := rfl
  by_cases h : s.params.ok = false
  · rw [guarded, guarded, if_pos h, if_pos (hm.trans h)]
    rfl
  · rw [guarded, guarded, if_neg h, if_neg (hm ▸ h), withDispatchMode_fault]
    cases s.fault <;> rfl

/-- What a mode-blind sequence leaves. -/
theorem finish_withDispatchMode {x : Block Unit} (h : ModeBlind m x) (s : State) :
    finish x (s.withDispatchMode m) = (finish x s).withDispatchMode m := by
  unfold finish
  rw [h s]
  cases x s <;> rfl

/-- A request whose body does not look at the Restriction Mode does not depend on it. -/
theorem hostRequest_withDispatchMode {x : Block Unit} (h : ModeBlind m x) (s : State) :
    hostRequest x (s.withDispatchMode m) = mapNext (State.withDispatchMode m) (hostRequest x s) := by
  have hm : (s.withDispatchMode m).busyOp = s.busyOp := rfl
  rw [hostRequest, hostRequest, ← mapNext_guarded]
  congr 1
  by_cases hb : s.busyOp ≠ .none
  · rw [if_pos hb, if_pos (hm ▸ hb)]
    rfl
  · rw [if_neg hb, if_neg (hm ▸ hb)]
    exact congrArg Host.Outcome.next (finish_withDispatchMode h (s.withResult none))

/-- The block's turn in a request that holds does not depend on the Restriction Mode. -/
theorem resumeHeld_withDispatchMode (s : State) :
    resumeHeld (s.withDispatchMode m) = mapNext (State.withDispatchMode m) (resumeHeld s) := by
  rw [resumeHeld, resumeHeld, ← mapNext_guarded, withDispatchMode_busyOp]
  congr 1
  cases s.busyOp with
  | none => rfl
  | acpHold => exact congrArg Host.Outcome.next (finish_withDispatchMode modeBlind_acpTurn s)
  | wait e => exact congrArg Host.Outcome.next (finish_withDispatchMode (modeBlind_waitTurn e) s)

theorem hostAccess_withDispatchMode (s : State) (off : Nat) (o : Host.Outcome State Fault Refusal) :
    hostAccess (s.withDispatchMode m) off (mapNext (State.withDispatchMode m) o) =
      mapNext (State.withDispatchMode m) (hostAccess s off o) := by
  rw [hostAccess, hostAccess, ← mapNext_guarded, withDispatchMode_busyOp, withDispatchMode_params]
  congr 1
  split
  · rfl
  · split <;> rfl

/-- A host read does not depend on the Restriction Mode. -/
theorem hostRead_withDispatchMode (space : Buffer) (off : Nat) (s : State) :
    hostRead space off (s.withDispatchMode m) = mapNext (State.withDispatchMode m) (hostRead space off s) := by
  cases space with
  | rxbuf =>
    refine Eq.trans ?_ (hostAccess_withDispatchMode s off _)
    refine congrArg (hostAccess (s.withDispatchMode m) off) ?_
    show Host.Outcome.next (match s.readByte .rxbuf off with
      | some b => _
      | none => _) = Host.Outcome.next (State.withDispatchMode m (match s.readByte .rxbuf off with
      | some b => _
      | none => _))
    cases s.readByte .rxbuf off <;> rfl
  | txbuf => exact hostAccess_withDispatchMode s off (.refused _)
  | stage => exact hostAccess_withDispatchMode s off (.next (s.withResult (some (.byte (s.stageByte off)))))

/-- A host write does not depend on the Restriction Mode. -/
theorem hostWrite_withDispatchMode (space : Buffer) (off : Nat) (b : Byte) (s : State) :
    hostWrite space off b (s.withDispatchMode m) = mapNext (State.withDispatchMode m) (hostWrite space off b s) := by
  cases space with
  | rxbuf => exact hostAccess_withDispatchMode s off (.refused _)
  | txbuf => exact hostAccess_withDispatchMode s off (.refused _)
  | stage => exact hostAccess_withDispatchMode s off (.next (s.writeByte .stage off b))

end Sys2Proof.Machine
end

