-- ==== Sys2Proof/Laws/PerInstr.lean ====
section
/-! SUPPORT. The statement made of every instruction, one lemma per constructor: a well-formed instruction is
encoded by the code of its own kind, in a row of the opcode table (R67, R71, R72, R74). -/

namespace Sys2Proof.Laws.Encodes

/-- The code of the instruction stands in the opcode table: for a request a 32-bit word some row selects and the
field constraints admit (R71, R72), for a driver primitive one of the five codes (R74). -/
def inTable (i : Instr) : Bool :=
  match encode i with
  | .request w => !i.isPrimitive && requestRows.any (fun r => r.selects w) && fieldConstraints w
  | .primitive c => i.isPrimitive && decide (1 ≤ c.toNat) && decide (c.toNat ≤ 5)

def Statement (i : Instr) : Prop := i.wf = true → inTable i = true

/-- Masking the low half of a request word whose `ARG16` is any value. -/
theorem low_half (arg : Half) (low mask : BitVec 16) :
    ((arg ++ low : Word) &&& ((0 : BitVec 16) ++ mask : Word)) = ((0 : BitVec 16) ++ (low &&& mask) : Word) := by
  apply BitVec.eq_of_getLsbD_eq
  intro i hi
  simp only [BitVec.getLsbD_and, BitVec.getLsbD_append]
  by_cases h : i < 16 <;> simp [h]

theorem wait_row (expected : Half) :
    RequestRow.selects ⟨0x0000FFFF, 0x00000005⟩ (requestWord 0x5 0 expected) = true :=
  beq_iff_eq.mpr (low_half expected 0x0005 0xFFFF)

theorem reply_row (lr : Half) :
    RequestRow.selects ⟨0x0000FEFF, 0x00000007⟩ (requestWord 0x7 1 lr) = true :=
  beq_iff_eq.mpr (low_half lr 0x0107 0xFEFF)

theorem beginReceive : Statement .beginReceive := fun _ => by decide

theorem poll (rmode : RMode) : Statement (.poll rmode) := fun _ => by cases rmode <;> decide

theorem send : Statement .send := fun _ => by decide

theorem armAndClearPending : Statement .armAndClearPending := fun _ => by decide

theorem waitRxAndClear (expected : Half) : Statement (.waitRxAndClear expected) := fun _ => by
  have h : requestRows.any (fun r => r.selects (requestWord 0x5 0 expected)) = true :=
    List.any_eq_true.mpr ⟨_, by decide, wait_row expected⟩
  show (true && requestRows.any (fun r => r.selects (requestWord 0x5 0 expected)) &&
    fieldConstraints (requestWord 0x5 0 expected)) = true
  rw [h]
  simp [fieldConstraints]

theorem dmaCancel : Statement .dmaCancel := fun _ => by decide

theorem dispatchReturn (reply : Bool) (lr : Half) : Statement (.dispatchReturn reply lr) := fun h => by
  cases reply with
  | false =>
    have h0 : lr = 0 := by simpa [Instr.wf] using h
    subst h0
    decide
  | true =>
    have h : requestRows.any (fun r => r.selects (requestWord 0x7 1 lr)) = true :=
      List.any_eq_true.mpr ⟨_, by decide, reply_row lr⟩
    show (true && requestRows.any (fun r => r.selects (requestWord 0x7 1 lr)) &&
      fieldConstraints (requestWord 0x7 1 lr)) = true
    rw [h]
    simp [fieldConstraints]

theorem armRx : Statement .armRx := fun _ => by decide

theorem armTx : Statement .armTx := fun _ => by decide

theorem getRemaining : Statement .getRemaining := fun _ => by decide

theorem chkClrDone : Statement .chkClrDone := fun _ => by decide

theorem cancel : Statement .cancel := fun _ => by decide

end Sys2Proof.Laws.Encodes
end

