-- ==== Sys2Proof/Laws/Step.lean ====
section
/-! SUPPORT. What a step does, one equation per kind of input and one for a driver call laid out alone, so that no
proof about a step unfolds the selection (R11, R13, log 5, log 11). -/

namespace Sys2Proof.Machine

theorem step_call {s : State} {code : Byte} (h : s.driverCall = some code) :
    step s = match decode (.primitive code) with
      | .ok i => exec i { s with driverCall := none }
      | .error _ => guarded { s with driverCall := none } (.refused (.noSuchPrimitive code)) := by
  simp only [step, select, h, selectCall]
  cases decode (.primitive code) <;> rfl

variable {s : State} {rest : List Input}

theorem step_request {word : Word} {during : List (List EnvStep)} (h : s.driverCall = none)
    (hi : s.inputs = .request word during :: rest) :
    step s = match decode (.request word) with
      | .ok i => exec i { s with inputs := rest, sched := during }
      | .error _ =>
        hostRequest (raiseFault (.illegalRequest word)) { s with inputs := rest, sched := during } := by
  simp only [step, select, h, hi, selectInput, selectRequest]
  cases decode (.request word) <;> rfl

theorem step_resume {during : List (List EnvStep)} (h : s.driverCall = none)
    (hi : s.inputs = .resume during :: rest) :
    step s = resumeHeld { s with inputs := rest, sched := during } := by
  simp only [step, select, h, hi, selectInput]

theorem step_hostRead {space : Buffer} {off : Nat} (h : s.driverCall = none)
    (hi : s.inputs = .hostRead space off :: rest) : step s = hostRead space off { s with inputs := rest } := by
  simp only [step, select, h, hi, selectInput]

theorem step_hostWrite {space : Buffer} {off : Nat} {b : Byte} (h : s.driverCall = none)
    (hi : s.inputs = .hostWrite space off b :: rest) :
    step s = hostWrite space off b { s with inputs := rest } := by
  simp only [step, select, h, hi, selectInput]

theorem step_env {e : EnvStep} (h : s.driverCall = none) (hi : s.inputs = .env e :: rest) :
    step s = guarded { s with inputs := rest } (.next (State.envStep { s with inputs := rest } e)) := by
  simp only [step, select, h, hi, selectInput]

/-- With no input left no agent takes a step (log 8). -/
theorem step_stutter (h : s.driverCall = none) (hi : s.inputs = []) : step s = guarded s (.next s) := by
  simp only [step, select, h, hi]

/-! ## The block's turn in a request that holds (R29, log 6) -/

theorem resumeHeld_acpHold {u : State} (hp : u.params.ok = true) (hf : u.fault = none) (hb : u.busyOp = .acpHold) :
    resumeHeld u = .next (finish acpTurn u) := by simp [resumeHeld, guarded, hp, hf, hb]

theorem resumeHeld_wait {u : State} {expected : Half} (hp : u.params.ok = true) (hf : u.fault = none)
    (hb : u.busyOp = .wait expected) : resumeHeld u = .next (finish (waitTurn expected) u) := by
  simp [resumeHeld, guarded, hp, hf, hb]

end Sys2Proof.Machine
end

