-- ==== Sys2Proof/Tests/Slice0.lean ====
section
/-! SUPPORT. The model's own tests: the WellFormed smoke, decoding of words written out from the spec's encoding, the
spec's worked examples, one step each, and for every statement with hypotheses a state and operands that meet them. -/

open Sys2Proof Sys2Proof.Machine Host Sys2Proof.Claims

namespace Sys2Proof.Tests

/-- The state a step answers, if it answers one. -/
def after : Outcome State Fault Refusal → Option State
  | .next t => some t
  | .fault _ => none
  | .refused _ => none

/-- The state after one instruction. -/
def ran (i : Instr) (s : State) : Option State := after (exec i s)

/-- The refusal a step ends in, if it ends in one. -/
def refusal : Outcome State Fault Refusal → Option Refusal
  | .next _ => none
  | .fault _ => none
  | .refused r => some r

/-- The smallest frame the bounds of R7 admit: `F = 12`, `N = 4`. -/
def tiny : Params where
  frameSize := 12
  authTagSize := 0
  remainingIdle := .zero
  staleCompletion := .mayFire
  overlenRearm := false
  hsTimeout := .none
  typeUsbHid := 0
  typeRadioHid := 1
  typePlatDetails := 3

/-- A frame image of 12 bytes with the low bytes of its four fields given, payload `AA BB 00 00`. -/
def image (type len1 len2 valid : Byte) : Memory :=
  [(0, type), (1, 0), (2, len1), (3, 0), (4, 0xAA), (5, 0xBB), (6, 0), (7, 0), (8, len2), (9, 0), (10, valid),
    (11, 0)]

/-- Armed, nothing landed. -/
def armed : State := { State.resetWith tiny with rxState := .active, armedSinceReset := true }

/-- A whole frame landed, its completion raised. -/
def whole (type len1 len2 valid : Byte) : State :=
  { armed with rxbuf := image type len1 len2 valid, rxState := .done, rxLanded := 12, doneFlag := true }

/-- A frame of type 3 in dispatch, an acceptable frame in STAGE. -/
def dispatching (rearm : Bool) : State :=
  { whole 3 2 2 1 with
    doneFlag := false, stage := image 0 2 2 1, phase := .dispatching 3 2 .unrestricted rearm }

/-- An acceptable frame in STAGE. -/
def staged : State := { armed with stage := image 3 2 2 1 }

/-- Waiting for a frame of type 3. -/
def waiting : State := { armed with busyOp := .wait 3, hsState := .wait }

/-! ## WellFormed and decoding -/

theorem test_wf_refuses_none_with_length : (Instr.dispatchReturn false 5).wf = false := by decide
theorem test_wf_accepts_reply : (Instr.dispatchReturn true 0xFFFF).wf = true := by decide

/-! Words written out from R66 to R71 and R75, codes from R74. -/

theorem test_decode_begin_receive : decodeTableWord 32 0x00000001 = some .beginReceive := by decide
theorem test_decode_poll : decodeTableWord 32 0x00000202 = some (.poll .allButAdministrativeBundle) := by decide
theorem test_decode_send : decodeTableWord 32 0x00000003 = some .send := by decide
theorem test_decode_acp : decodeTableWord 32 0x00000004 = some .armAndClearPending := by decide
theorem test_decode_wait : decodeTableWord 32 0xABCD0005 = some (.waitRxAndClear 0xABCD) := by decide
theorem test_decode_cancel_request : decodeTableWord 32 0x00000006 = some .dmaCancel := by decide
theorem test_decode_return_none : decodeTableWord 32 0x00000007 = some (.dispatchReturn false 0) := by decide
theorem test_decode_return_reply : decodeTableWord 32 0x00050107 = some (.dispatchReturn true 5) := by decide
theorem test_decode_arm_rx : decodeTableWord 8 0x01 = some .armRx := by decide
theorem test_decode_arm_tx : decodeTableWord 8 0x02 = some .armTx := by decide
theorem test_decode_get_remaining : decodeTableWord 8 0x03 = some .getRemaining := by decide
theorem test_decode_chk_clr_done : decodeTableWord 8 0x04 = some .chkClrDone := by decide
theorem test_decode_cancel : decodeTableWord 8 0x05 = some .cancel := by decide

/-- R71: one word of every illegal kind. -/
theorem test_decode_illegal :
    [0x00000000, 0x00000008, 0x0000000F, 0x00000011, 0x00000401, 0x00008001, 0x00000101, 0x00000203, 0x00000104,
      0x00000305, 0x00000106, 0x00000302, 0x00000207, 0x00000307, 0x00010007, 0x00010001, 0x00010002, 0x00010003,
      0x00010004, 0x00010006].all (fun w => (decodeTableWord 32 w).isNone) = true := by decide

theorem test_no_such_primitive : decodeTableWord 8 0x06 = none ∧ decodeTableWord 8 0x00 = none := by decide

/-! ## The codec's examples (R79 to R91) -/

theorem test_bytes16 : le16 0x06 0x00 = 0x0006 ∧ bytes16 0x8005 = (0x05, 0x80) := by decide
theorem test_fast_ready : fastReady 10 6 = true ∧ fastReady 9 6 = false ∧ fastReady 32 0 = false := by decide
theorem test_resolve_full :
    resolveFull 6 0 9 = .len 6 ∧ resolveFull 0 1 9 = .len 9 ∧ resolveFull 0 0 9 = .invalid := by decide
theorem test_resolve_completed : resolveCompleted false 1 6 = some 6 ∧ resolveCompleted true 1 6 = none ∧
    resolveCompleted false 0 6 = none := by decide
theorem test_over_length : overLength Config.defaultParams 24 = false ∧ overLength Config.defaultParams 25 = true := by
  decide
theorem test_cmd_check :
    cmdCheck Config.defaultParams 6 [0x01, 0x00, 0x02, 0x00, 0xAA, 0xBB] = .ok 0x0001 false 2 20 ∧
      cmdCheck Config.defaultParams 6 [0x05, 0x80, 0x02, 0x00, 0x00, 0x00] = .ok 0x0005 true 2 16 ∧
      cmdCheck Config.defaultParams 6 [0x01, 0x00, 0x03, 0x00, 0x00, 0x00] = .drop := by decide
theorem test_tx_frame_ok : txFrameOk Config.defaultParams 5 5 1 = true ∧ txFrameOk Config.defaultParams 5 6 1 = false ∧
    txFrameOk Config.defaultParams 5 5 0 = false := by decide

/-! ## One step of each instruction, from the spec's examples -/

/-- R109: after reset, `TRSTATUS = 0x1001`, trace `[ARM_RX]`. -/
theorem test_begin_receive_after_reset :
    (ran .beginReceive State.reset).map (fun t => (t.trstatus, t.rxLanded, t.trace)) =
      some (0x1001, 0, [.armRx]) := by decide +kernel

/-- R111's example, case 1a: a landed frame with its flag raised is handed up with `rearm` set. -/
theorem test_poll_case_1a :
    (ran (.poll .unrestricted) (whole 0 2 2 1)).map (fun t => (t.phase, t.doneFlag, t.trace)) =
      some (.dispatching 0 2 .unrestricted true, false,
        [.remaining 0, .chkDone true, .dispatch 0 2 .unrestricted]) := by decide +kernel

/-- R111, case 1b: with the header and the claimed bytes arrived, no completion: `rearm` clear, marker set. -/
theorem test_poll_case_1b :
    (ran (.poll .onlyPingAndCancel) { armed with rxbuf := image 1 2 0 0, rxLanded := 6 }).map
        (fun t => (t.phase, t.answeredFast, t.result)) =
      some (.dispatching 1 2 .onlyPingAndCancel false, true, some .dispatched) := by decide +kernel

/-- R119's example, with `F = 12`: re-armed, fields written, transmission armed. -/
theorem test_dispatch_return_reply :
    (ran (.dispatchReturn true 4) (dispatching true)).map
        (fun t => (t.stage, t.txbuf, t.trace, t.phase, t.rxState)) =
      some (image 3 4 4 1, image 3 4 4 1, [.ret true 4, .armRx, .armTx], .idle, .active) := by decide +kernel

theorem test_dispatch_return_none :
    (ran (.dispatchReturn false 0) (dispatching false)).map (fun t => (t.trace, t.phase, t.rxState)) =
      some ([.ret false 0], .idle, .done) := by decide +kernel

/-- R125's example: TXBUF is STAGE, `HS_REQ_SENT`. -/
theorem test_send_armed :
    (ran .send { staged with hsState := .armed }).map (fun t => (t.txbuf, t.txBusy, t.txSent, t.hsState, t.trace)) =
      some (image 3 2 2 1, true, 0, .reqSent, [.armTx]) := by decide +kernel

theorem test_send_bad_frame :
    (ran .send { armed with stage := image 3 2 1 1 }).map (fun t => (t.fault, t.txBusy)) =
      some (some (.badTxFrame 2 1 1), false) := by decide +kernel

/-- R130's example: a completion not yet consumed is discarded. -/
theorem test_acp_completes :
    (ran .armAndClearPending (whole 3 2 2 1)).map
        (fun t => (t.rxState, t.rxLanded, t.doneFlag, t.hsState, t.trace)) =
      some (.active, 0, false, .armed, [.armRx]) := by decide +kernel

theorem test_acp_holds_while_transmitting :
    (ran .armAndClearPending { armed with txBusy := true }).map (fun t => (t.busyOp, t.trace)) =
      some (.acpHold, []) := by decide +kernel

/-- R132's example: the awaited reply matches. -/
theorem test_wait_matches :
    (ran (.waitRxAndClear 3) (whole 3 2 2 1)).map (fun t => (t.trace, t.hsState, t.busyOp, t.result)) =
      some ([.chkDone true, .hsMatch 3 2], .idle, .none, some (.matched 3 2)) := by decide +kernel

/-- R133: an over-length frame of the expected type is discarded. -/
theorem test_wait_discards_over_length :
    (ran (.waitRxAndClear 3) (whole 3 5 5 1)).map (fun t => (t.trace, t.busyOp, t.rxState)) =
      some ([.chkDone true, .hsDiscard 3 (.len 5), .armRx], .wait 3, .active) := by decide +kernel

/-- R136's example. -/
theorem test_dma_cancel :
    (ran .dmaCancel armed).map (fun t => (t.rxState, t.rxLanded, t.trace)) = some (.idle, 0, [.cancelRx]) := by
  decide +kernel

/-- R94's example, and a ghost from DONE_PENDING. -/
theorem test_arm_rx :
    (ran .armRx (whole 3 2 2 1)).map (fun t => (t.rxState, t.rxLanded, t.doneFlag, t.trace)) =
      some (.active, 0, true, [.armRx]) := by decide +kernel
theorem test_arm_rx_ghost :
    (ran .armRx { armed with rxState := .donePending, rxLanded := 12 }).map (fun t => t.rxGhost) = some true := by
  decide +kernel

/-- R95's example. -/
theorem test_arm_tx : (ran .armTx { armed with txSent := 12 }).map (fun t => (t.txBusy, t.txSent, t.trace)) =
    some (true, 0, [.armTx]) := by decide +kernel

/-- R96's example, with `F = 12`: ten bytes landed, two remaining; and `ZERO` while idle. -/
theorem test_get_remaining : (ran .getRemaining { armed with rxLanded := 10 }).map (fun t => (t.result, t.trace)) =
    some (some (.remaining 2), [.remaining 2]) := by decide +kernel
theorem test_get_remaining_idle : (ran .getRemaining (whole 3 2 2 1)).map (fun t => t.result) =
    some (some (.remaining 0)) := by decide +kernel

/-- R97's example. -/
theorem test_chk_clr_done : (ran .chkClrDone (whole 3 2 2 1)).map (fun t => (t.result, t.doneFlag, t.rxState, t.trace)) =
    some (some (.flag true), false, .done, [.chkDone true]) := by decide +kernel

/-- R98's example. -/
theorem test_cancel : (ran .cancel { armed with rxLanded := 7 }).map (fun t => (t.rxState, t.rxLanded, t.trace)) =
    some (.idle, 7, [.cancelRx]) := by decide +kernel

/-! ## Steps -/

/-- R41, R42, R12, R7: the refusals, each by name. -/
theorem test_refusals :
    refusal (step { armed with inputs := [.hostRead .txbuf 0] }) = some (.hostAccessNotGranted .txbuf) ∧
      refusal (step { armed with inputs := [.hostWrite .rxbuf 11 0] }) = some (.hostAccessNotGranted .rxbuf) ∧
      refusal (step { armed with inputs := [.hostRead .stage 12] }) = some (.offsetOutOfRange 12) ∧
      refusal (step { waiting with inputs := [.request 1 []] }) = some .hostStepDuringHold ∧
      refusal (step { armed with params := { tiny with frameSize := 11 } }) = some .parametersOutOfBounds := by
  decide +kernel

/-- R99: the last byte ends the landing; a byte after it overruns. -/
theorem test_rx_land :
    (after (step { armed with rxLanded := 11, inputs := [.env (.rxLand 7)] })).map
        (fun t => (t.rxState, t.rxbuf, t.fault)) = some (.donePending, [(11, 7)], none) ∧
      (after (step { armed with rxState := .donePending, inputs := [.env (.rxLand 7)] })).map (fun t => t.fault) =
        some (some (.rxOverrun 7 .donePending)) := by decide +kernel

/-- What the host's check asks of one row of each kind: the placed instruction is the one that runs. -/
theorem test_with_fetch_word :
    (after (step (State.reset.withFetchWord 32 0x00000001))).map (fun t => t.trace) = some [.armRx] ∧
      (after (step (State.reset.withFetchWord 8 0x05))).map (fun t => t.trace) = some [.cancelRx] := by decide +kernel

/-! ## Witnesses: a state and operands that meet a statement's hypotheses -/

theorem ready_of {s : State} (h : s.params.ok = true ∧ s.fault = none ∧ s.busyOp = .none) : s.Ready := h

theorem takes_of {s : State} {i : Input} {rest : List Input}
    (h : s.params.ok = true ∧ s.fault = none ∧ s.driverCall = none ∧ s.inputs = i :: rest) : takes s i rest := h

theorem witness_DecodeUndoesEncode : (Instr.dispatchReturn true 5).wf = true := by decide

theorem witness_AcceptedCodesAreEncodings : decode (.request 0x00050107) = .ok (.dispatchReturn true 5) := by rfl

theorem witness_DecoderFollowsTheTable :
    (∃ r ∈ requestRows, r.selects 0x00000302 = true) ∧ fieldConstraints 0x00000302 = false ∧
      (∃ r ∈ requestRows, r.selects 0x00000202 = true) ∧ fieldConstraints 0x00000202 = true := by decide

/-- One word for each clause of R71's list, at a boundary value, and a state that takes it. -/
theorem witness_IllegalWordsFault :
    (illegalWord 0x0 ∧ illegalWord 0x8 ∧ illegalWord 0x81 ∧ illegalWord 0x401 ∧ illegalWord 0x101 ∧
      illegalWord 0x302 ∧ illegalWord 0x207 ∧ illegalWord 0x10007 ∧ illegalWord 0x10006) ∧
      takes { armed with inputs := [.request 0x8 []] } (.request 0x8 []) [] :=
  ⟨by simp [illegalWord], takes_of (by decide)⟩

theorem witness_FrameLayoutRoundTrips :
    tiny.ok = true ∧ (⟨3, 2, [1, 2, 3, 4], 2, 1⟩ : Frame).pay.length = tiny.payloadCap ∧
      (List.replicate 12 (7 : Byte)).length = tiny.frameSize := by decide

/-- Length `N` at its boundary, and the frame on which the paths differ. -/
theorem witness_CompletionPathsAgreeOnWellFormedFrames :
    wellFormed tiny ⟨3, 4, [], 4, 1⟩ = true ∧ wellFormed tiny ⟨3, 0, [], 4, 2⟩ = true ∧
      wellFormed tiny ⟨3, 5, [], 5, 1⟩ = false ∧ (4 : Half).toNat ≤ tiny.payloadCap := by decide

theorem witness_CommandCheckAcceptsExactLengths :
    Config.defaultParams.ok = true ∧ 24 ≤ Config.defaultParams.payloadCap := by decide

/-! The driver primitives' hypotheses: legal parameters and no fault, in the state their rule speaks of. -/

theorem witness_ArmRxRestartsTheTransfer :
    (whole 3 2 2 1).params.ok = true ∧ (whole 3 2 2 1).fault = none := by decide

theorem witness_ArmTxStartsTheTransmission : staged.params.ok = true ∧ staged.fault = none := by decide

theorem witness_ChkClrDoneTestsAndClears :
    (whole 3 2 2 1).params.ok = true ∧ (whole 3 2 2 1).fault = none ∧ (whole 3 2 2 1).doneFlag = true := by decide

theorem witness_CancelStopsReception :
    ({ armed with rxState := .donePending, rxLanded := 12 } : State).params.ok = true ∧
      ({ armed with rxState := .donePending, rxLanded := 12 } : State).fault = none := by decide

/-- GET_REMAINING: a transfer and both fixed settings outside one. -/
theorem witness_GetRemainingReportsTheCount :
    armed.rxState = .active ∧ (whole 3 2 2 1).rxState = .done ∧ (whole 3 2 2 1).params.remainingIdle = .zero ∧
      ({ whole 3 2 2 1 with params := { tiny with remainingIdle := .full } } : State).params.ok = true := by decide

theorem witness_LandedByteIsStoredOrOverruns :
    takes { armed with inputs := [.env (.rxLand 7)] } (.env (.rxLand 7)) [] ∧
      takes { whole 3 2 2 1 with inputs := [.env (.rxLand 7)] } (.env (.rxLand 7)) [] ∧
      armed.rxState = .active ∧ (whole 3 2 2 1).rxState ≠ .active :=
  ⟨takes_of (by decide), takes_of (by decide), by decide, by decide⟩

theorem witness_CompletionAndGhostSteps :
    takes { armed with rxState := .donePending, inputs := [.env .rxComplete] } (.env .rxComplete) [] ∧
      takes { armed with rxGhost := true, inputs := [.env .ghostFire] } (.env .ghostFire) [] ∧
      takes { armed with rxGhost := true, inputs := [.env .ghostDrop] } (.env .ghostDrop) [] :=
  ⟨takes_of (by decide), takes_of (by decide), takes_of (by decide)⟩

/-- The byte before the last, and the last. -/
theorem witness_TxByteMovesTheNextByte :
    takes { armed with txBusy := true, txSent := 10, inputs := [.env .txByte] } (.env .txByte) [] ∧
      takes { armed with txBusy := true, txSent := 11, inputs := [.env .txByte] } (.env .txByte) [] ∧
      (11 : Nat) + 1 = armed.params.frameSize := ⟨takes_of (by decide), takes_of (by decide), by decide⟩

theorem witness_TimeoutEndsAWaitOnlyWhenAllowed :
    takes { waiting with inputs := [.env .timeout] } (.env .timeout) [] ∧
      takes { waiting with params := { tiny with hsTimeout := .nondet }, inputs := [.env .timeout] }
        (.env .timeout) [] := ⟨takes_of (by decide), takes_of (by decide)⟩

/-- Twelve bytes land and the completion is raised without a fault. -/
theorem witness_BytesLandInOrderAndAreCounted :
    armed.params.ok = true ∧ armed.fault = none ∧ armed.rxState = .active ∧ armed.rxLanded = 0 ∧
      (armed.runEnv (List.replicate 12 (.rxLand 7) ++ [.rxComplete])).fault = none := by decide +kernel

theorem witness_ArrivedBytesAreRaceSafe :
    (1 : Nat) < ({ armed with rxLanded := 2, rxbuf := [(0, 5), (1, 6)] } : State).params.frameSize -
      ({ armed with rxLanded := 2, rxbuf := [(0, 5), (1, 6)] } : State).remaining := by decide

/-- In either phase. -/
theorem witness_BeginReceiveArmsReception :
    armed.Ready ∧ armed.Undisturbed ∧ (dispatching true).Ready ∧ (dispatching true).Undisturbed :=
  ⟨ready_of (by decide), rfl, ready_of (by decide), rfl⟩

/-- With a burst at the first boundary, and with one that faults. -/
theorem witness_BeginReceiveUnderAnyInterleaving :
    ({ armed with sched := [[.rxLand 7]] } : State).Ready ∧
      ({ armed with sched := [List.replicate 13 (.rxLand 7)] } : State).Ready :=
  ⟨ready_of (by decide), ready_of (by decide)⟩

theorem witness_PollNeverBlocks : ({ whole 3 2 2 1 with sched := [[.txByte], []] } : State).Ready :=
  ready_of (by decide)

/-- A POLL that dispatches; a step during a dispatch that is no POLL. -/
theorem witness_RestrictionModeIsPassedThrough :
    (whole 3 2 2 1).Ready ∧ (whole 3 2 2 1).phase = .idle ∧
      ¬ pollIsNext { dispatching true with inputs := [.resume []] } :=
  ⟨ready_of (by decide), rfl, by rintro ⟨_, _, _, _, h, _⟩; cases h⟩

theorem witness_DmaCancelStopsReception :
    ({ armed with rxState := .donePending, rxLanded := 12 } : State).Ready := ready_of (by decide)

theorem witness_EveryRequestAnswersWhenReady : (whole 3 2 2 1).Ready ∧ (dispatching false).Ready :=
  ⟨ready_of (by decide), ready_of (by decide)⟩

theorem witness_OutOfSequenceRequestsFault :
    (dispatching true).Ready ∧ (dispatching true).phase ≠ .idle ∧ armed.phase = .idle ∧
      (State.resetWith tiny).Ready ∧ (State.resetWith tiny).armedSinceReset = false :=
  ⟨ready_of (by decide), by decide, by decide, ready_of (by decide), rfl⟩

theorem witness_PollDecidesByTheCodec :
    (whole 3 0 4 1).Ready ∧ (whole 3 0 4 1).Undisturbed ∧ (whole 3 0 4 1).phase = .idle ∧
      (whole 3 0 4 1).armedSinceReset = true ∧ (whole 3 0 4 1).rxField typeOff = some 3 ∧
      (whole 3 0 4 1).rxField len1Off = some 0 ∧ (whole 3 0 4 1).rxField (len2Off tiny) = some 4 ∧
      (whole 3 0 4 1).rxField (validOff tiny) = some 1 :=
  ⟨ready_of (by decide), rfl, rfl, rfl, by decide, by decide, by decide, by decide⟩

/-- Four bytes landed: the header, at its boundary. -/
theorem witness_FastPathNeedsOnlyTheHeader :
    ({ armed with rxLanded := 4, rxbuf := [(0, 3), (1, 0), (2, 1), (3, 0)] } : State).Ready ∧
      (4 : Nat) ≤ tiny.frameSize -
        ({ armed with rxLanded := 4, rxbuf := [(0, 3), (1, 0), (2, 1), (3, 0)] } : State).remaining ∧
      ({ armed with rxLanded := 4, rxbuf := [(0, 3), (1, 0), (2, 1), (3, 0)] } : State).rxField typeOff = some 3 ∧
      ({ armed with rxLanded := 4, rxbuf := [(0, 3), (1, 0), (2, 1), (3, 0)] } : State).rxField len1Off = some 1 :=
  ⟨ready_of (by decide), by decide, by decide, by decide⟩

/-- Three bytes landed, and a frame already answered. -/
theorem witness_PollWithNothingToDoReturnsNoMsg :
    ({ armed with rxLanded := 3 } : State).Ready ∧
      tiny.frameSize - ({ armed with rxLanded := 3 } : State).remaining < 4 ∧
      ({ armed with answeredFast := true } : State).doneFlag = false :=
  ⟨ready_of (by decide), by decide, rfl⟩

/-- R165: a first transfer cancelled, with `DMA_REMAINING_IDLE = ZERO`. -/
theorem witness_PollOfUnwrittenHeaderFaults :
    ({ armed with rxState := .idle } : State).Ready ∧
      (4 : Nat) ≤ tiny.frameSize - ({ armed with rxState := .idle } : State).remaining ∧
      ({ armed with rxState := .idle } : State).rxbuf.read 2 = none :=
  ⟨ready_of (by decide), by decide, rfl⟩

theorem witness_CompletionBetweenCountAndFlagIsTaken :
    let s : State := { armed with
      rxbuf := image 3 2 2 1, rxLanded := 11, sched := [[.rxLand 7, .rxComplete]] }
    s.Ready ∧ s.rxState = .active ∧ s.rxLanded + 1 = s.params.frameSize ∧ s.rxField typeOff = some 3 ∧
      s.rxField len1Off = some 2 ∧ (2 : Half).toNat ≤ s.params.payloadCap :=
  ⟨ready_of (by decide), by decide, by decide, by decide, by decide, by decide⟩

/-- Both clauses: the completion raised, and not. -/
theorem witness_InvalidFrameIsDroppedAndRearmed :
    (whole 3 0 4 0).Ready ∧ (whole 3 0 4 0).rxField len1Off = some 0 ∧
      (whole 3 0 4 0).rxField (validOff tiny) = some 0 ∧ (whole 3 0 4 0).doneFlag = true ∧
      ({ whole 3 0 4 0 with doneFlag := false } : State).Ready :=
  ⟨ready_of (by decide), by decide, by decide, rfl, ready_of (by decide)⟩

/-- A POLL, and a step that takes one. -/
theorem witness_AnsweredFrameIsNotHandedUpAgain :
    let s : State := { whole 3 2 2 1 with answeredFast := true, inputs := [.request 0x00000002 []] }
    s.answeredFast = true ∧ (∃ t, exec (.poll .unrestricted) s = .next t) ∧ ∃ t, step s = .next t :=
  ⟨rfl, ⟨_, rfl⟩, _, rfl⟩

theorem witness_OverLengthStallPersists :
    let s : State := { whole 3 5 5 1 with doneFlag := false, answeredFast := true }
    s.Ready ∧ s.Undisturbed ∧ s.phase = .idle ∧ s.armedSinceReset = true ∧ s.rxState = .done ∧
      s.doneFlag = false := ⟨ready_of (by decide), rfl, rfl, rfl, rfl, rfl⟩

theorem witness_WellFormedFrameIsHandedUp :
    armed.Ready ∧ armed.Undisturbed ∧ armed.phase = .idle ∧
      (⟨3, 0, [1, 2, 3, 4], 4, 1⟩ : Frame).pay.length = armed.params.payloadCap ∧
      wellFormed armed.params ⟨3, 0, [1, 2, 3, 4], 4, 1⟩ = true :=
  ⟨ready_of (by decide), rfl, rfl, by decide, by decide⟩

/-- Busy; free with `Lr = N + 1`; free with a bad frame in STAGE. -/
theorem witness_TransmitFaultsComeBeforeAnyEffect :
    ({ dispatching true with txBusy := true } : State).Ready ∧ (dispatching true).phase = .dispatching 3 2 .unrestricted true ∧
      (dispatching true).params.payloadCap < (5 : Half).toNat ∧ (dispatching true).txBusy = false ∧
      txFrameOk tiny (({ armed with stage := image 3 2 1 1 } : State).stageField len1Off)
        (({ armed with stage := image 3 2 1 1 } : State).stageField (len2Off tiny))
        (({ armed with stage := image 3 2 1 1 } : State).stageField (validOff tiny)) = false :=
  ⟨ready_of (by decide), rfl, by decide, rfl, by decide⟩

/-- Both marks. -/
theorem witness_ReturnWithoutReplyRearmsAsMarked :
    (dispatching true).Ready ∧ (dispatching true).Undisturbed ∧
      (dispatching true).phase = .dispatching 3 2 .unrestricted true ∧ (dispatching false).Ready ∧
      (dispatching false).phase = .dispatching 3 2 .unrestricted false :=
  ⟨ready_of (by decide), rfl, rfl, ready_of (by decide), rfl⟩

/-- `Lr = N`. -/
theorem witness_ReturnWithReplyFramesAndSends :
    (dispatching true).Ready ∧ (dispatching true).Undisturbed ∧
      (dispatching true).phase = .dispatching 3 2 .unrestricted true ∧ (dispatching true).txBusy = false ∧
      (4 : Half).toNat ≤ (dispatching true).params.payloadCap :=
  ⟨ready_of (by decide), rfl, rfl, rfl, by decide⟩

theorem witness_TransmittedRepliesAreWellFormed :
    (dispatching false).phase = .dispatching 3 2 .unrestricted false ∧
      ∃ t, exec (.dispatchReturn true 4) (dispatching false) = .next t ∧ t.fault = none := ⟨rfl, _, rfl, rfl⟩

theorem witness_SendCopiesStageAndArms :
    staged.Ready ∧ staged.Undisturbed ∧ staged.txBusy = false ∧
      txFrameOk staged.params (staged.stageField len1Off) (staged.stageField (len2Off staged.params))
        (staged.stageField (validOff staged.params)) = true ∧ ∃ t, exec .send staged = .next t :=
  ⟨ready_of (by decide), rfl, rfl, by decide, _, rfl⟩

/-- A state that meets the invariant. -/
theorem staged_inv : staged.Inv where
  paramsOk := by decide
  rxWf := by decide
  rxWithin := by decide
  txWf := by decide
  txWithin := by decide
  stageWf := by decide
  stageWithin := by decide
  landedLe := by decide
  landedActive := by decide
  landedDone := by decide
  landedWritten off h := absurd h (Nat.not_lt_zero off)
  ghostAllowed := by decide
  txLeaving := by decide
  txAtRest := by decide
  framesWhole f h := absurd h (List.not_mem_nil)
  unarmed := by decide
  waitArmed := by decide
  dispatchFits _ _ _ _ h := nomatch h
  noCall := rfl

/-- A dispatch over `staged`. -/
theorem staged_dispatch_inv : ({ staged with phase := .dispatching 3 2 .unrestricted true } : State).Inv :=
  { staged_inv with dispatchFits := fun _ _ _ _ h => by cases h; decide }

/-- A host write between the bytes, and `F` TX_BYTE steps, after a SEND and after a reply. -/
theorem witness_SendDeliversTheStagedFrame :
    let d : State := { staged with phase := .dispatching 3 2 .unrestricted true }
    let is : List Input := .hostWrite .stage 11 0 :: List.replicate 12 (.env .txByte)
    (staged.Inv ∧ staged.Undisturbed ∧ staged.busyOp = .none ∧ staged.txBusy = false ∧
      ((ran .send staged).map fun t => t.fault) = some none) ∧
    (d.Inv ∧ d.Undisturbed ∧ d.busyOp = .none ∧ d.txBusy = false ∧
      ((ran (.dispatchReturn true 4) d).map fun t => t.fault) = some none) ∧
    (∀ i ∈ is, txOrStageWrite 12 i) ∧ is.count (.env .txByte) = staged.params.frameSize := by
  refine ⟨⟨staged_inv, rfl, rfl, rfl, by decide +kernel⟩, ⟨staged_dispatch_inv, rfl, rfl, rfl, by decide +kernel⟩,
    ?_, by decide⟩
  intro i hi
  simp only [List.mem_cons, List.mem_replicate] at hi
  rcases hi with rfl | ⟨_, rfl⟩
  · show (11 : Nat) < 12
    decide
  · trivial

theorem witness_ArmAndClearPendingCompletes :
    armed.Ready ∧ armed.Undisturbed ∧ armed.quiescent = true := ⟨ready_of (by decide), rfl, by decide⟩

/-- Issued with one byte landed; resumed part-way and quiescent. -/
theorem witness_ArmAndClearPendingHolds :
    ({ armed with rxLanded := 1 } : State).Ready ∧ ({ armed with rxLanded := 1 } : State).quiescent = false ∧
      takes { armed with busyOp := .acpHold, rxLanded := 1, inputs := [.resume []] } (.resume []) [] ∧
      takes { armed with busyOp := .acpHold, inputs := [.resume []] } (.resume []) [] ∧
      ({ armed with busyOp := .acpHold, inputs := [.resume []] } : State).quiescent = true :=
  ⟨ready_of (by decide), by decide, takes_of (by decide), takes_of (by decide), by decide⟩

theorem witness_ArmAndClearPendingLeavesNoGhost :
    armed.rxGhost = false ∧ (∃ t, exec .armAndClearPending armed = .next t) ∧
      takes { armed with busyOp := .acpHold, inputs := [.resume []] } (.resume []) [] ∧
      ∃ t, step { armed with busyOp := .acpHold, inputs := [.resume []] } = .next t :=
  ⟨rfl, ⟨_, rfl⟩, takes_of (by decide), _, rfl⟩

/-- A matching frame of length `N`, when the wait is issued and when it has been holding. -/
theorem witness_WaitReturnsTheAwaitedFrame :
    (whole 3 4 4 1).Ready ∧ (whole 3 4 4 1).Undisturbed ∧ (whole 3 4 4 1).armedSinceReset = true ∧
      (whole 3 4 4 1).doneFlag = true ∧ (whole 3 4 4 1).rxField typeOff = some 3 ∧
      (whole 3 4 4 1).rxField len1Off = some 4 ∧ (whole 3 4 4 1).rxField (len2Off tiny) = some 4 ∧
      (whole 3 4 4 1).rxField (validOff tiny) = some 1 ∧ resolveAny 4 1 4 = .len 4 ∧ 4 ≤ tiny.payloadCap ∧
      takes { whole 3 4 4 1 with busyOp := .wait 3, inputs := [.resume []] } (.resume []) [] :=
  ⟨ready_of (by decide), rfl, rfl, rfl, by decide, by decide, by decide, by decide, by decide, by decide,
    takes_of (by decide)⟩

/-- A wrong type, `INVALID`, and length `N + 1`; when the wait is issued and when it has been holding. -/
theorem witness_WaitDiscardsAnyOtherFrame :
    (whole 2 5 5 0).Ready ∧ (whole 2 5 5 0).Undisturbed ∧ (whole 2 5 5 0).doneFlag = true ∧
      (whole 2 5 5 0).rxField typeOff = some 2 ∧ (whole 2 5 5 0).rxField len1Off = some 5 ∧
      (whole 2 5 5 0).rxField (len2Off tiny) = some 5 ∧ (whole 2 5 5 0).rxField (validOff tiny) = some 0 ∧
      (2 : Half) ≠ 3 ∧ resolveAny 0 0 5 = .invalid ∧ resolveAny 5 0 5 = .len 5 ∧ tiny.payloadCap < 5 ∧
      takes { whole 2 5 5 0 with busyOp := .wait 3, inputs := [.resume []] } (.resume []) [] :=
  ⟨ready_of (by decide), rfl, rfl, by decide, by decide, by decide, by decide, by decide, by decide, by decide,
    by decide, takes_of (by decide)⟩

theorem witness_WaitHoldsUntilACompletion :
    armed.Ready ∧ armed.armedSinceReset = true ∧ armed.doneFlag = false ∧
      takes { waiting with inputs := [.resume [[.rxComplete]]] } (.resume [[.rxComplete]]) [] ∧
      waiting.doneFlag = false := ⟨ready_of (by decide), rfl, rfl, takes_of (by decide), rfl⟩

theorem witness_NoDispatchWhileWaiting :
    waiting.busyOp = .wait 3 ∧ waiting.driverCall = none ∧ waiting.params.ok = true ∧ waiting.fault = none ∧
      (Instr.poll .unrestricted).isPrimitive = false ∧
      ∃ t, step { waiting with inputs := [.resume []] } = .next t := ⟨rfl, rfl, by decide, rfl, rfl, _, rfl⟩

/-- Never armed or cancelled, and a transfer over with its flag consumed. -/
theorem witness_UnarmedWaitNeverEnds :
    let s : State := { waiting with rxState := .idle, inputs := [.resume []] }
    let u : State := { waiting with rxState := .done, rxLanded := 12, inputs := [.env (.rxLand 7)] }
    (s.params.hsTimeout = .none ∧ s.busyOp = .wait 3 ∧ s.rxState = .idle ∧ s.doneFlag = false ∧
      s.rxGhost = false ∧ s.driverCall = none ∧ ∃ t, step s = .next t) ∧
    (u.params.hsTimeout = .none ∧ u.busyOp = .wait 3 ∧ u.rxState = .done ∧ u.doneFlag = false ∧
      u.rxGhost = false ∧ u.driverCall = none ∧ ∃ t, step u = .next t) :=
  ⟨⟨rfl, rfl, rfl, rfl, rfl, rfl, _, rfl⟩, rfl, rfl, rfl, rfl, rfl, rfl, _, rfl⟩

/-- One witness for each clause, at the last offset of the space and the first outside it. -/
theorem witness_HostAccessRights :
    armed.busyOp = .none ∧ takes { armed with inputs := [.hostRead .stage 11] } (.hostRead .stage 11) [] ∧
      takes { whole 3 2 2 1 with inputs := [.hostRead .rxbuf 11] } (.hostRead .rxbuf 11) [] ∧
      takes { armed with inputs := [.hostWrite .stage 11 0] } (.hostWrite .stage 11 0) [] ∧
      takes { armed with inputs := [.hostRead .txbuf 11] } (.hostRead .txbuf 11) [] ∧
      takes { armed with inputs := [.hostWrite .rxbuf 11 0] } (.hostWrite .rxbuf 11 0) [] ∧
      takes { armed with inputs := [.hostRead .rxbuf 12] } (.hostRead .rxbuf 12) [] ∧
      takes { armed with inputs := [.hostWrite .stage 12 0] } (.hostWrite .stage 12 0) [] ∧
      (11 : Nat) < armed.params.frameSize ∧ armed.params.frameSize ≤ 12 :=
  ⟨rfl, takes_of (by decide), takes_of (by decide), takes_of (by decide), takes_of (by decide),
    takes_of (by decide), takes_of (by decide), takes_of (by decide), by decide, by decide⟩

theorem witness_StepRunsTheDecodedInstruction :
    armed.driverCall = none ∧ ({ armed with inputs := [.request 0x00000005 []] } : State).inputs =
        [.request 0x00000005 []] ∧ decode (.request 0x00000005) = .ok (.waitRxAndClear 0) ∧
      (State.reset.withFetchWord 8 3).driverCall = some 3 ∧ decode (.primitive 3) = .ok .getRemaining :=
  ⟨rfl, rfl, rfl, rfl, rfl⟩

/-- A recorded fault within R7, and parameters one byte short of R7. -/
theorem witness_FaultStopsEveryAgent :
    (armed.raise (.txBusy 3)).fault = some (.txBusy 3) ∧ withinR7 (armed.raise (.txBusy 3)).params ∧
      ¬ withinR7 ({ armed with params := { tiny with frameSize := 11 } } : State).params :=
  ⟨rfl, ⟨by decide, by decide, by decide, by decide, by decide⟩, fun h => absurd h.1 (by decide)⟩

theorem witness_HandshakeStateMovesAsTheTable : ∃ t, exec (.waitRxAndClear 3) armed = .next t := ⟨_, rfl⟩

/-- With a burst of the transmit channel between the events, and no landing. -/
theorem witness_BuffersHaveOneWriter :
    (∃ t, exec .beginReceive { armed with sched := [[.txByte, .ghostDrop]] } = .next t) ∧
      ∀ burst ∈ ({ armed with sched := [[.txByte, .ghostDrop]] } : State).sched, landedBytes burst = [] :=
  ⟨⟨_, rfl⟩, by decide⟩

theorem witness_TraceOnlyGrows : ∃ t, step { armed with inputs := [.request 0x00000001 [[.rxLand 7]]] } = .next t :=
  ⟨_, rfl⟩

theorem witness_StatusViewsShowTheState :
    armed.fault = none ∧ (armed.raise (.txBusy 3)).fault = some (.txBusy 3) ∧
      (whole 3 2 2 1).params.ok = true ∧ (whole 3 2 2 1).rxLanded = (whole 3 2 2 1).params.frameSize := by decide

theorem witness_ResetMeetsTheInvariant : Config.defaultParams.ok = true ∧ tiny.ok = true := by decide

theorem witness_StepKeepsTheInvariant :
    ({ staged with inputs := [.request 0x00000003 []] } : State).Inv ∧
      ∃ t, step { staged with inputs := [.request 0x00000003 []] } = .next t := ⟨{ staged_inv with }, _, rfl⟩

end Sys2Proof.Tests
end

namespace Sys2Proof.Proofs.Scope

open Sys2Proof Sys2Proof.Machine

/-- The block executes the request a word decodes to, its own bursts as the schedule (R13, log 5). -/
theorem step_request_of_decode {s : State} {w : Word} {during : List (List EnvStep)} {rest : List Input} {i : Instr}
    (hcall : s.driverCall = none) (hinput : s.inputs = .request w during :: rest)
    (hdec : decode (.request w) = .ok i) :
    step s = exec i { s with inputs := rest, sched := during } := by
  rw [step_request hcall hinput, hdec]

/-- A driver call laid out alone goes before every input, and is consumed (R11, log 11). -/
theorem step_call_of_decode {s : State} {c : Byte} {i : Instr} (hcall : s.driverCall = some c)
    (hdec : decode (.primitive c) = .ok i) : step s = exec i { s with driverCall := none } := by
  rw [step_call hcall, hdec]

/-- Settles O52: the step equations for a request and for a driver call, at a code that decodes. -/
theorem stepRunsTheDecodedInstruction : Obligations.StepRunsTheDecodedInstruction :=
  ⟨fun _ _ _ _ _ hcall hinput hdec => step_request_of_decode hcall hinput hdec,
    fun _ _ _ hcall hdec => step_call_of_decode hcall hdec⟩

end Sys2Proof.Proofs.Scope

/-! ## What a step that answers a next state has done -/

namespace Sys2Proof.Machine

/-- An instruction answers a next state only from legal parameters and no recorded fault (R141, R152). -/
theorem exec_next_ready {i : Instr} {s t : State} (h : exec i s = .next t) :
    s.params.ok = true ∧ s.fault = none := by
  have gate {o : Host.Outcome State Fault Refusal} (h : guarded s o = .next t) :
      s.params.ok = true ∧ s.fault = none :=
    let ⟨hp, hf, _⟩ := guarded_next h
    ⟨hp, hf⟩
  cases i <;> exact gate h

/-- What a host access has passed when it answers a next state (R12, R41). -/
theorem hostAccess_next {s t : State} {off : Nat} {o : Host.Outcome State Fault Refusal}
    (h : hostAccess s off o = .next t) :
    s.params.ok = true ∧ s.fault = none ∧ s.busyOp = .none ∧ off < s.params.frameSize ∧ o = .next t := by
  obtain ⟨hp, hf, h⟩ := guarded_next h
  split_ifs at h with hb hoff
  exact ⟨hp, hf, by simpa using hb, by omega, h⟩

/-- A host read hands a byte back, or faults at a byte of RXBUF never written (R42, R44). -/
theorem hostRead_next {space : Buffer} {off : Nat} {s t : State} (h : hostRead space off s = .next t) :
    s.params.ok = true ∧ s.fault = none ∧
      ((∃ b, t = s.withResult (some (.byte b))) ∨ t = s.raise (.uninitRead off)) := by
  obtain ⟨hp, hf, _, _, h⟩ := hostAccess_next h
  refine ⟨hp, hf, ?_⟩
  cases space with
  | rxbuf =>
    cases hr : s.readByte .rxbuf off with
    | some b => simp only [hr, Host.Outcome.next.injEq] at h; exact .inl ⟨b, h.symm⟩
    | none => simp only [hr, Host.Outcome.next.injEq] at h; exact .inr h.symm
  | txbuf => cases h
  | stage => cases h; exact .inl ⟨_, rfl⟩

/-- A host write that is not refused writes one byte of STAGE below `F` (R41, R42). -/
theorem hostWrite_next {space : Buffer} {off : Nat} {b : Byte} {s t : State}
    (h : hostWrite space off b s = .next t) :
    s.params.ok = true ∧ s.fault = none ∧ space = .stage ∧ off < s.params.frameSize ∧
      t = s.writeByte .stage off b := by
  obtain ⟨hp, hf, _, hoff, h⟩ := hostAccess_next h
  cases space with
  | rxbuf => cases h
  | txbuf => cases h
  | stage => cases h; exact ⟨hp, hf, rfl, hoff, rfl⟩

/-- The ways `s` can step to a next state, one for each thing State selects (R11, R13, log 5, log 11). -/
inductive Moves (s : State) : State → Prop
  | call {code : Byte} {i : Instr} {t : State} (hcall : s.driverCall = some code)
      (hdec : decode (.primitive code) = .ok i) (h : exec i { s with driverCall := none } = .next t) : Moves s t
  | stutter (hcall : s.driverCall = none) (hin : s.inputs = []) : Moves s s
  | request {word : Word} {during : List (List EnvStep)} {rest : List Input} {i : Instr} {t : State}
      (hcall : s.driverCall = none) (hin : s.inputs = .request word during :: rest)
      (hdec : decode (.request word) = .ok i)
      (h : exec i { s with inputs := rest, sched := during } = .next t) : Moves s t
  | illegal {word : Word} {during : List (List EnvStep)} {rest : List Input} {t : State}
      (hcall : s.driverCall = none) (hin : s.inputs = .request word during :: rest)
      (h : hostRequest (raiseFault (.illegalRequest word)) { s with inputs := rest, sched := during } = .next t) :
      Moves s t
  | resume {during : List (List EnvStep)} {rest : List Input} {t : State}
      (hcall : s.driverCall = none) (hin : s.inputs = .resume during :: rest)
      (h : resumeHeld { s with inputs := rest, sched := during } = .next t) : Moves s t
  | hostRead {space : Buffer} {off : Nat} {rest : List Input} {t : State}
      (hcall : s.driverCall = none) (hin : s.inputs = .hostRead space off :: rest)
      (h : hostRead space off { s with inputs := rest } = .next t) : Moves s t
  | hostWrite {space : Buffer} {off : Nat} {b : Byte} {rest : List Input} {t : State}
      (hcall : s.driverCall = none) (hin : s.inputs = .hostWrite space off b :: rest)
      (h : hostWrite space off b { s with inputs := rest } = .next t) : Moves s t
  | env {e : EnvStep} {rest : List Input} (hcall : s.driverCall = none) (hin : s.inputs = .env e :: rest) :
      Moves s (State.envStep { s with inputs := rest } e)

/-- Everything a step can do when it answers a next state, and what it has passed (R141, R152). -/
theorem step_next {s t : State} (h : step s = .next t) : s.params.ok = true ∧ s.fault = none ∧ Moves s t := by
  cases hcall : s.driverCall with
  | some code =>
    rw [step_call hcall] at h
    cases hdec : decode (.primitive code) with
    | ok i =>
      rw [hdec] at h
      obtain ⟨hp, hf⟩ := exec_next_ready h
      exact ⟨hp, hf, .call hcall hdec h⟩
    | error e =>
      rw [hdec] at h
      obtain ⟨_, _, h⟩ := guarded_next h
      cases h
  | none =>
    cases hin : s.inputs with
    | nil =>
      rw [step_stutter hcall hin] at h
      obtain ⟨hp, hf, h⟩ := guarded_next h
      cases h
      exact ⟨hp, hf, .stutter hcall hin⟩
    | cons input rest =>
      cases input with
      | request word during =>
        rw [step_request hcall hin] at h
        cases hdec : decode (.request word) with
        | ok i =>
          rw [hdec] at h
          obtain ⟨hp, hf⟩ := exec_next_ready h
          exact ⟨hp, hf, .request hcall hin hdec h⟩
        | error e =>
          rw [hdec] at h
          obtain ⟨hp, hf, _, _⟩ := hostRequest_next h
          exact ⟨hp, hf, .illegal hcall hin h⟩
      | resume during =>
        rw [step_resume hcall hin] at h
        obtain ⟨hp, hf, _⟩ := guarded_next h
        exact ⟨hp, hf, .resume hcall hin h⟩
      | hostRead space off =>
        rw [step_hostRead hcall hin] at h
        obtain ⟨hp, hf, _⟩ := hostRead_next h
        exact ⟨hp, hf, .hostRead hcall hin h⟩
      | hostWrite space off b =>
        rw [step_hostWrite hcall hin] at h
        obtain ⟨hp, hf, _⟩ := hostWrite_next h
        exact ⟨hp, hf, .hostWrite hcall hin h⟩
      | env e =>
        rw [step_env hcall hin] at h
        obtain ⟨hp, hf, h⟩ := guarded_next h
        cases h
        exact ⟨hp, hf, .env hcall hin⟩

/-- `OPSEL` selects host requests only (R67). -/
theorem isPrimitive_of_requestOf {w : Word} {i : Instr} (h : requestOf w = some i) : i.isPrimitive = false := by
  have plain {j : Instr} (hj : j.isPrimitive = false) (h : plainRequest w j = some i) : i.isPrimitive = false := by
    unfold plainRequest at h
    split_ifs at h
    cases h
    exact hj
  unfold requestOf at h
  split_ifs at h
  · exact plain rfl h
  · unfold pollRequest at h
    split_ifs at h
    obtain ⟨_, _, rfl⟩ := Option.map_eq_some_iff.mp h
    rfl
  · exact plain rfl h
  · exact plain rfl h
  · unfold waitRequest at h
    split_ifs at h
    cases h
    rfl
  · exact plain rfl h
  · unfold returnRequest at h
    split_ifs at h <;> cases h <;> rfl

/-- A host word decodes to a host request, never to a driver primitive (R72, R74). -/
theorem isPrimitive_of_decode_request {w : Word} {i : Instr} (h : decode (.request w) = .ok i) :
    i.isPrimitive = false := by
  cases hr : requestOf w with
  | none => simp [decode, hr] at h
  | some j =>
    have hji : j = i := by simpa [decode, hr] using h
    exact isPrimitive_of_requestOf (hji ▸ hr)

/-- The five codes of R74 decode to driver primitives only. -/
theorem isPrimitive_of_decode_primitive {c : Byte} {i : Instr} (h : decode (.primitive c) = .ok i) :
    i.isPrimitive = true := by
  cases hr : primitiveOf c with
  | none => simp [decode, hr] at h
  | some j =>
    have hji : j = i := by simpa [decode, hr] using h
    subst hji
    unfold primitiveOf at hr
    split_ifs at hr <;> cases hr <;> rfl

end Sys2Proof.Machine

/-! ## What every request keeps, given what its events keep -/

namespace Sys2Proof.Machine

variable {P Q R : State → Prop} {α : Type}

theorem Leads.keeps {x : Block α} (h : Leads P P P x) : Keeps P x := h

theorem Keeps.self_leads {x : Block α} (h : Keeps P x) : Leads P P P x := h.leads fun _ hs => hs

/-- What keeps two properties may stop where only the first is asked for. -/
theorem Keeps.leads_left {x : Block α} (h : Keeps (fun s => P s ∧ Q s) x) :
    Leads (fun s => P s ∧ Q s) (fun s => P s ∧ Q s) P x := h.leads fun _ hs => hs.1

/-- `P`, and no frame is leaving (R26). -/
abbrev WithTxIdle (P : State → Prop) (s : State) : Prop := P s ∧ s.txBusy = false

/-- Two properties that survive the environment survive it together. -/
theorem EnvKeeps.and (hP : EnvKeeps P) (hQ : EnvKeeps Q) : EnvKeeps fun s => P s ∧ Q s where
  env s e hs := ⟨hP.env s e hs.1, hQ.env s e hs.2⟩
  sched s l hs := ⟨hP.sched s l hs.1, hQ.sched s l hs.2⟩

/-- No environment step starts a transmission (R102). -/
theorem envKeeps_txBusy_false : EnvKeeps fun s => s.txBusy = false where
  env s e hs :=
    let ⟨hbusy, _⟩ := envStep_txBusy_false s e hs
    hbusy
  sched _ _ hs := hs

/-- No environment step undoes the first arm (R28). -/
theorem envKeeps_armedSinceReset : EnvKeeps fun s => s.armedSinceReset = true where
  env s e hs := by simpa using hs
  sched _ _ hs := hs

/-- Among the common events none starts a transmission. -/
theorem EventsKeep.txIdle (h : EventsKeep P) : EventsKeep (WithTxIdle P) where
  env := h.env.and envKeeps_txBusy_false
  raise s r hs := ⟨h.raise s r hs.1, hs.2⟩
  result s r hs := ⟨h.result s r hs.1, hs.2⟩
  emit s e hs := ⟨h.emit s e hs.1, hs.2⟩
  answered s b hs := ⟨h.answered s b hs.1, hs.2⟩
  arm s hs := ⟨h.arm s hs.1, hs.2⟩
  took s hs := ⟨h.took s hs.1, hs.2⟩
  chk s hs := ⟨h.chk s hs.1, hs.2⟩

/-- Every event of every request, and the host's and the environment's own steps, keep `P`. An event has to keep it
only where a request can reach it: a transmission is armed while none is leaving (R119, R125), a wait holds once
reception was armed (R132), a frame in dispatch is not over-length (R86). -/
structure RequestsKeep (P : State → Prop) : Prop extends EventsKeep P where
  paramsOk : ∀ s, P s → s.params.ok = true
  inputs : ∀ s l, P s → P { s with inputs := l }
  cancel : ∀ s, P s → P s.cancelRx
  armTx : ∀ s, P s → s.txBusy = false → P s.armTx
  writeTx : ∀ s off b, P s → off < s.params.frameSize → P (s.writeByte .txbuf off b)
  writeStage : ∀ s off b, P s → off < s.params.frameSize → P (s.writeByte .stage off b)
  clear : ∀ s, P s → P s.armAndClear
  setHs : ∀ s h, P s → P (s.setHs h)
  unhold : ∀ s, P s → P (s.setBusy .none)
  hold : ∀ s, P s → P (s.setBusy .acpHold)
  wait : ∀ s e, P s → s.armedSinceReset = true → P (s.setBusy (.wait e))
  idle : ∀ s, P s → P (s.setPhase .idle)
  dispatch : ∀ s t l m r, P s → l ≤ s.params.payloadCap → P (s.setPhase (.dispatching t l m r))
  mark : ∀ s, P s → P (s.setPhase s.phase.markRearm)

/-- `send_frame()` takes what the copy keeps to what ARM_TX makes of it (R126). -/
theorem leads_sendFrame (h : EnvKeeps P)
    (hw : ∀ s off b, P s → off < s.params.frameSize → P (s.writeByte .txbuf off b))
    (ha : ∀ s, P s → Q s.armTx) (hr : ∀ s, P s → R s) : Leads P Q R sendFrame := by
  intro s hs
  have hc := keeps_copyBytes h hw s.params.frameSize 0 s ⟨hs, by omega⟩
  simp only [sendFrame, Block.bind_apply, look_apply]
  cases hx : copyBytes 0 s.params.frameSize s with
  | ok a t => rw [hx] at hc; exact ha t hc.1
  | error e t => rw [hx] at hc; exact hr t hc.1

namespace RequestsKeep

variable (h : RequestsKeep P)
include h

theorem between : Keeps P between := keeps_between h.env

/-- A frame sent while none is leaving (R125, R126). -/
theorem sendFrame : Leads (WithTxIdle P) P P sendFrame :=
  leads_sendFrame h.txIdle.env (fun s _ _ hs hoff => ⟨h.writeTx s _ _ hs.1 hoff, hs.2⟩)
    (fun s hs => h.armTx s hs.1 hs.2) fun _ hs => hs.1

/-- A reply framed in STAGE and sent while no frame is leaving (R119). -/
theorem replyFields (type lr : Half) : Keeps (WithTxIdle P) (writeReplyFields type lr) :=
  keeps_writeReplyFields h.txIdle.env (fun s hs => h.paramsOk s hs.1)
    (fun s _ _ hs hoff => ⟨h.writeStage s _ _ hs.1 hoff, hs.2⟩) type lr

theorem sendAccepted : Leads (WithTxIdle P) P P sendAccepted :=
  leads_bind h.sendFrame fun _ => (keeps_bind (keeps_look _ _) fun _ => keeps_ite
    (keeps_bind h.between fun _ => keeps_bind (keeps_event fun s => h.setHs s _) fun _ => h.complete _)
    (h.complete _)).self_leads

/-- SEND arms a transmission only where its first test saw none leaving (R125). -/
theorem sendBody : Keeps P sendBody := by
  refine Leads.keeps (leads_look fun seen =>
    leads_ite (fun _ => leads_raise fun s hs => h.raise s _ hs.1) fun hidle => ?_)
  have gap := (keeps_between h.txIdle.env).leads_left
  refine leads_weaken (P := WithTxIdle P) ?_ (fun s hs => ⟨hs.1, ?_⟩) fun _ hs => hs
  · exact leads_bind (h.txIdle.rd16 _ _).leads_left fun _ => leads_bind gap fun _ =>
      leads_bind (h.txIdle.rd16 _ _).leads_left fun _ => leads_bind gap fun _ =>
        leads_bind (h.txIdle.rd16 _ _).leads_left fun _ => leads_bind gap fun _ =>
          leads_ite (fun _ => h.sendAccepted) fun _ => leads_raise fun s hs => h.raise s _ hs.1
  · have hseen : s = seen := hs.2
    simpa [hseen] using hidle

/-- The end of DISPATCH_RETURN without a reply (R119). -/
theorem returnIdle : Keeps P (do event fun s => s.setPhase .idle; complete .completed) :=
  keeps_bind (keeps_event h.idle) fun _ => h.complete _

/-- The end of DISPATCH_RETURN with a reply (R119). -/
theorem returnReply (type lr : Half) : Leads (WithTxIdle P) P P (do
    writeReplyFields type lr
    Machine.between
    Machine.sendFrame
    Machine.between
    event fun s => s.setPhase .idle
    complete .completed) :=
  leads_bind (h.replyFields type lr).leads_left fun _ =>
    leads_bind (keeps_between h.txIdle.env).leads_left fun _ =>
      leads_bind h.sendFrame fun _ => (keeps_bind h.between fun _ => h.returnIdle).self_leads

/-- DISPATCH_RETURN past its checks, which saw no frame leaving where there is a reply (R119). -/
theorem returnRun (type : Half) (rearm reply : Bool) (lr : Half) :
    Leads (fun s => P s ∧ (reply = true → s.txBusy = false)) P P (returnRun type rearm reply lr) := by
  cases reply with
  | false =>
    refine leads_weaken (P := P) (Keeps.self_leads ?_) (fun _ hs => hs.1) fun _ hs => hs
    exact keeps_bind (keeps_event fun s => h.emit s _) fun _ => keeps_bind h.between fun _ => keeps_ite
      (keeps_bind h.rearm fun _ => keeps_bind h.between fun _ => h.returnIdle) h.returnIdle
  | true =>
    refine leads_weaken (P := WithTxIdle P) ?_ (fun _ hs => ⟨hs.1, hs.2 rfl⟩) fun _ hs => hs
    have gap := (keeps_between h.txIdle.env).leads_left
    exact leads_bind (Keeps.leads_left (keeps_event fun s => h.txIdle.emit s _)) fun _ =>
      leads_bind gap fun _ => leads_ite
        (fun _ => leads_bind h.txIdle.rearm.leads_left fun _ => leads_bind gap fun _ => h.returnReply type lr)
        fun _ => h.returnReply type lr

theorem dispatchReturnBody (reply : Bool) (lr : Half) : Keeps P (dispatchReturnBody reply lr) := by
  have stop {r : FaultRecord} {seen : State} : Leads (fun s => P s ∧ id s = seen) P P (raiseFault r : Block Unit) :=
    leads_raise fun s hs => h.raise s _ hs.1
  refine Leads.keeps (leads_look fun seen => leads_ite (fun _ => stop) fun _ => ?_)
  cases seen.phase with
  | idle => exact stop
  | dispatching type len m rearm =>
    refine leads_ite (fun _ => stop) fun hidle => leads_ite (fun _ => stop) fun _ =>
      leads_weaken (h.returnRun type rearm reply lr) (fun s hs => ⟨hs.1, fun hr => ?_⟩) fun _ hs => hs
    have hseen : s = seen := hs.2
    simpa [hseen, hr] using hidle

theorem acpTurn : Keeps P acpTurn :=
  keeps_acpTurn h.env (fun s hs _ => h.clear s hs) h.unhold (fun s => h.setHs s _) fun s r => h.result s r

theorem waitTurn (expected : Half) : Keeps P (waitTurn expected) :=
  keeps_waitTurn h.toEventsKeep h.mark h.unhold (fun s => h.setHs s _) expected

/-- WAIT_RX_AND_CLEAR enters its wait only where its first test saw reception armed (R132, R145). -/
theorem waitRxAndClearBody (expected : Half) : Keeps P (waitRxAndClearBody expected) := by
  refine Leads.keeps (leads_look fun armed =>
    leads_ite (fun _ => leads_raise fun s hs => h.raise s _ hs.1) fun harmed => ?_)
  have he : EnvKeeps fun s => P s ∧ s.armedSinceReset = true := h.env.and envKeeps_armedSinceReset
  refine leads_weaken (P := fun s => P s ∧ s.armedSinceReset = true) ?_
    (fun s hs => ⟨hs.1, by simpa [hs.2] using harmed⟩) fun _ hs => hs
  exact leads_bind (Keeps.leads_left (keeps_event fun s hs => ⟨h.setHs s _ hs.1, hs.2⟩)) fun _ =>
    leads_bind (keeps_between he).leads_left fun _ =>
      leads_bind (leads_event fun s hs => h.wait s _ hs.1 hs.2) fun _ =>
        (keeps_bind h.between fun _ => h.waitTurn expected).self_leads

theorem armAndClearPendingBody : Keeps P armAndClearPendingBody :=
  keeps_bind (keeps_event h.hold) fun _ => keeps_bind h.between fun _ => h.acpTurn

theorem of_hostRequest {body : Block Unit} {s t : State} (hbody : Keeps P body) (hs : P s)
    (hnext : hostRequest body s = .next t) : P t := by
  obtain ⟨_, _, _, rfl⟩ := hostRequest_next hnext
  exact finish_keeps hbody _ (h.result s _ hs)

/-- Every host request keeps what its events keep, under every interleaving. -/
theorem of_exec {i : Instr} {s t : State} (hi : i.isPrimitive = false) (hs : P s)
    (hnext : exec i s = .next t) : P t := by
  cases i with
  | beginReceive => exact h.of_hostRequest (keeps_beginReceiveBody h.toEventsKeep) hs hnext
  | poll rmode => exact h.of_hostRequest (keeps_pollBody h.toEventsKeep h.dispatch rmode) hs hnext
  | send => exact h.of_hostRequest h.sendBody hs hnext
  | armAndClearPending => exact h.of_hostRequest h.armAndClearPendingBody hs hnext
  | waitRxAndClear expected => exact h.of_hostRequest (h.waitRxAndClearBody expected) hs hnext
  | dmaCancel =>
    exact h.of_hostRequest (keeps_bind (keeps_event h.cancel) fun _ => h.complete _) hs hnext
  | dispatchReturn reply lr => exact h.of_hostRequest (h.dispatchReturnBody reply lr) hs hnext
  | armRx | armTx | getRemaining | chkClrDone | cancel => cases hi

/-- The block's turn in a request that holds keeps what its events keep. -/
theorem of_resumeHeld {s t : State} (hs : P s) (hnext : resumeHeld s = .next t) : P t := by
  obtain ⟨_, _, hnext⟩ := guarded_next hnext
  cases hb : s.busyOp with
  | none =>
    rw [hb] at hnext
    cases hnext
    exact hs
  | acpHold =>
    rw [hb] at hnext
    cases hnext
    exact finish_keeps h.acpTurn s hs
  | wait expected =>
    rw [hb] at hnext
    cases hnext
    exact finish_keeps (h.waitTurn expected) s hs

/-- With no driver call laid out alone, a step keeps what every event keeps. -/
theorem of_step {s t : State} (hcall : s.driverCall = none) (hs : P s) (hstep : step s = .next t) : P t := by
  obtain ⟨_, _, hmove⟩ := step_next hstep
  have queued : ∀ rest, P { s with inputs := rest } := fun rest => h.inputs s rest hs
  have issued : ∀ rest during, P { s with inputs := rest, sched := during } := fun rest during =>
    h.env.sched _ during (queued rest)
  cases hmove with
  | call hsome => simp [hcall] at hsome
  | stutter => exact hs
  | request _ _ hdec hexec => exact h.of_exec (isPrimitive_of_decode_request hdec) (issued _ _) hexec
  | illegal _ _ hnext => exact h.of_hostRequest (keeps_raise fun s => h.raise s _) (issued _ _) hnext
  | resume _ _ hnext => exact h.of_resumeHeld (issued _ _) hnext
  | hostRead _ _ hnext =>
    obtain ⟨_, _, ⟨_, rfl⟩ | rfl⟩ := hostRead_next hnext
    · exact h.result _ _ (queued _)
    · exact h.raise _ _ (queued _)
  | hostWrite _ _ hnext =>
    obtain ⟨_, _, _, hoff, rfl⟩ := hostWrite_next hnext
    exact h.writeStage _ _ _ (queued _) hoff
  | env => exact h.env.env _ _ (queued _)

end RequestsKeep

end Sys2Proof.Machine

/-! ## The events of the machine keep the invariant -/

namespace Sys2Proof.Machine

/-- R7 leaves room for the header and the trailer, and every offset fits in 16 bits. -/
theorem Params.frameSize_bounds {p : Params} (h : p.ok = true) : 12 ≤ p.frameSize ∧ p.frameSize ≤ 65535 := by
  simp only [Params.ok, Bool.and_eq_true, decide_eq_true_eq] at h
  omega

/-- A ghost is left only under `MAY_FIRE`, and only by a transfer that was done but not signalled (R25). -/
theorem State.leavesGhost_iff {s : State} :
    s.leavesGhost = true ↔ s.rxState = .donePending ∧ s.params.staleCompletion = .mayFire := by
  simp [State.leavesGhost]

namespace State.Inv

variable {s : State}

/-- Whatever leaves a ghost, the ghost is one the parameters allow (R25). -/
theorem ghost_or_leaves (hs : s.Inv) (h : (s.rxGhost || s.leavesGhost) = true) :
    s.params.staleCompletion = .mayFire := by
  rcases Bool.or_eq_true_iff.mp h with h | h
  · exact hs.ghostAllowed h
  · exact (State.leavesGhost_iff.mp h).2

theorem armRx (hs : s.Inv) : s.armRx.Inv :=
  have hF : 0 < s.params.frameSize := by have := Params.frameSize_bounds hs.paramsOk; omega
  { hs with
    landedLe := Nat.zero_le _
    landedActive := fun _ => hF
    landedDone := by simp
    landedWritten := fun _ h => absurd h (Nat.not_lt_zero _)
    ghostAllowed := hs.ghost_or_leaves
    unarmed := by simp
    waitArmed := fun _ => rfl }

theorem armAndClear (hs : s.Inv) : s.armAndClear.Inv := { hs.armRx with unarmed := by simp }

/-- A transmission armed while none is leaving starts from an empty `tx_partial` (R26, R34). -/
theorem armTx (hs : s.Inv) (hidle : s.txBusy = false) : s.armTx.Inv :=
  have hF : 0 < s.params.frameSize := by have := Params.frameSize_bounds hs.paramsOk; omega
  { hs with
    txLeaving := fun _ => ⟨hF, by simp [hs.txAtRest hidle]⟩
    txAtRest := by simp }

theorem chkClrDone (hs : s.Inv) : s.chkClrDone.Inv :=
  { hs with
    unarmed := fun h =>
      let ⟨hst, hland, _, hghost, hbuf⟩ := hs.unarmed h
      ⟨hst, hland, rfl, hghost, hbuf⟩ }

theorem cancelRx (hs : s.Inv) : s.cancelRx.Inv :=
  { hs with
    landedActive := by simp
    landedDone := by simp
    ghostAllowed := hs.ghost_or_leaves
    unarmed := fun h => by
      obtain ⟨hst, hland, hflag, hghost, hbuf⟩ := hs.unarmed h
      exact ⟨rfl, hland, hflag, by simp [hghost, State.leavesGhost, hst], hbuf⟩ }

theorem writeTx (hs : s.Inv) {off : Nat} (b : Byte) (hoff : off < s.params.frameSize) :
    (s.writeByte .txbuf off b).Inv :=
  { hs with
    txWf := Memory.wf_write _ _ _ hs.txWf
    txWithin := Memory.within_write _ _ _ _ hs.txWithin hoff }

theorem writeStage (hs : s.Inv) {off : Nat} (b : Byte) (hoff : off < s.params.frameSize) :
    (s.writeByte .stage off b).Inv :=
  { hs with
    stageWf := Memory.wf_write _ _ _ hs.stageWf
    stageWithin := Memory.within_write _ _ _ _ hs.stageWithin hoff }

/-- `d_rearm` is not part of the bound on a frame in dispatch (R86, R134). -/
theorem markRearm (hs : s.Inv) : (s.setPhase s.phase.markRearm).Inv :=
  { hs with
    dispatchFits := fun t l m r h => by
      cases hp : s.phase with
      | idle => simp [hp, Phase.markRearm] at h
      | dispatching t' l' m' r' =>
        simp only [State.setPhase_phase, hp, Phase.markRearm, Phase.dispatching.injEq] at h
        obtain ⟨_, rfl, _, _⟩ := h
        exact hs.dispatchFits _ _ _ _ hp }

/-! ### The environment's steps -/

/-- A byte that lands is written below `F`, and the transfer is over when it was the last (R50, R99). -/
theorem land (hs : s.Inv) (hactive : s.rxState = .active) (b : Byte) :
    State.Inv { s with
      rxbuf := s.rxbuf.write s.rxLanded b
      rxLanded := s.rxLanded + 1
      rxState := if s.rxLanded + 1 = s.params.frameSize then .donePending else .active } :=
  have hlt := hs.landedActive hactive
  { hs with
    rxWf := Memory.wf_write _ _ _ hs.rxWf
    rxWithin := Memory.within_write _ _ _ _ hs.rxWithin hlt
    landedLe := hlt
    landedActive := fun h => by
      show s.rxLanded + 1 < s.params.frameSize
      have hne : s.rxLanded + 1 ≠ s.params.frameSize := fun heq => by simp [heq] at h
      omega
    landedDone := fun h => by
      by_contra hne
      simp [hne] at h
    landedWritten := fun off h => by
      have hle : off < s.rxLanded + 1 := h
      by_cases hoff : off = s.rxLanded
      · simp [hoff]
      · exact Memory.isSome_read_write _ _ _ _ (hs.landedWritten off (by omega))
    unarmed := fun h => by
      obtain ⟨hst, _⟩ := hs.unarmed h
      simp [hst] at hactive }

/-- RX_COMPLETE signals a transfer whose `F` bytes have landed (R100). -/
theorem signalled (hs : s.Inv) (hpending : s.rxState = .donePending) :
    State.Inv { s with doneFlag := true, rxState := .done } :=
  { hs with
    landedActive := fun h => by cases h
    landedDone := fun _ => hs.landedDone (.inl hpending)
    unarmed := fun h => by
      obtain ⟨hst, _⟩ := hs.unarmed h
      simp [hst] at hpending }

/-- A ghost is pending only after an arm (R25, R28). -/
theorem armed_of_ghost (hs : s.Inv) (hghost : s.rxGhost = true) : s.armedSinceReset = true := by
  by_contra h
  obtain ⟨_, _, _, hnone, _⟩ := hs.unarmed (by simpa using h)
  simp [hnone] at hghost

theorem ghostFired (hs : s.Inv) (hghost : s.rxGhost = true) :
    State.Inv { s with doneFlag := true, rxGhost := false } :=
  { hs with
    ghostAllowed := fun h => by cases h
    unarmed := fun h => absurd ((hs.armed_of_ghost hghost).symm.trans h) (by decide) }

theorem ghostDropped (hs : s.Inv) (hghost : s.rxGhost = true) : State.Inv { s with rxGhost := false } :=
  { hs with
    ghostAllowed := fun h => by cases h
    unarmed := fun h => absurd ((hs.armed_of_ghost hghost).symm.trans h) (by decide) }

/-- The byte that leaves last makes the frame the companion receives `F` bytes long (R34, R102). -/
theorem lastByteSent (hs : s.Inv) (hbusy : s.txBusy = true) (hlast : s.txSent + 1 = s.params.frameSize) (b : Byte) :
    State.Inv { s with
      txBusy := false
      txSent := s.txSent + 1
      txFrames := s.txFrames ++ [s.txPartial ++ [b]]
      txPartial := [] } :=
  { hs with
    txLeaving := fun h => by cases h
    txAtRest := fun _ => rfl
    framesWhole := fun f h => by
      obtain ⟨_, hlen⟩ := hs.txLeaving hbusy
      rcases List.mem_append.mp h with h | h
      · exact hs.framesWhole f h
      · rw [List.mem_singleton.mp h]
        simpa [hlen] using hlast }

theorem byteSent (hs : s.Inv) (hbusy : s.txBusy = true) (hmore : s.txSent + 1 ≠ s.params.frameSize) (b : Byte) :
    State.Inv { s with txSent := s.txSent + 1, txPartial := s.txPartial ++ [b] } :=
  { hs with
    txLeaving := fun _ => by
      obtain ⟨hlt, hlen⟩ := hs.txLeaving hbusy
      exact ⟨by show s.txSent + 1 < s.params.frameSize; omega, by simp [hlen]⟩
    txAtRest := fun h => absurd (hbusy.symm.trans h) (by decide) }

theorem envStep (hs : s.Inv) (e : EnvStep) : (s.envStep e).Inv := by
  rcases envStep_cases s e with h | ⟨_, ⟨b, _, hactive, h⟩ | ⟨_, _, _, h⟩ | ⟨_, hpending, h⟩ |
    ⟨_, hghost, h⟩ | ⟨_, hghost, h⟩ | ⟨_, hbusy, hlast, h⟩ | ⟨_, hbusy, hmore, h⟩ | ⟨_, _, _, h⟩⟩ <;> rw [h]
  · exact hs
  · exact hs.land hactive b
  · exact { hs with }
  · exact hs.signalled hpending
  · exact hs.ghostFired hghost
  · exact hs.ghostDropped hghost
  · exact hs.lastByteSent hbusy hlast _
  · exact hs.byteSent hbusy hmore _
  · exact { hs with waitArmed := fun hw => by cases hw }

end State.Inv

/-- Every event a request can reach keeps the invariant. -/
theorem requestsKeep_inv : RequestsKeep State.Inv where
  env := ⟨fun _ e hs => hs.envStep e, fun _ _ hs => { hs with }⟩
  raise _ _ hs := { hs with }
  result _ _ hs := { hs with }
  emit _ _ hs := { hs with }
  answered _ _ hs := { hs with }
  arm _ hs := hs.armRx
  took _ hs := { hs with }
  chk _ hs := hs.chkClrDone
  paramsOk _ hs := hs.paramsOk
  inputs _ _ hs := { hs with }
  cancel _ hs := hs.cancelRx
  armTx _ hs hidle := hs.armTx hidle
  writeTx _ _ b hs hoff := hs.writeTx b hoff
  writeStage _ _ b hs hoff := hs.writeStage b hoff
  clear _ hs := hs.armAndClear
  setHs _ _ hs := { hs with }
  unhold _ hs := { hs with waitArmed := fun hw => by cases hw }
  hold _ hs := { hs with waitArmed := fun hw => by cases hw }
  wait _ _ hs harmed := { hs with waitArmed := fun _ => harmed }
  idle _ hs := { hs with dispatchFits := fun _ _ _ _ h => by cases h }
  dispatch _ _ _ _ _ hs hfits := { hs with dispatchFits := fun _ _ _ _ h => by cases h; exact hfits }
  mark _ hs := hs.markRearm

/-! ## The trace and the parameters -/

/-- `t` has the parameters of `s` and has taken back no event of its trace (R6, R33). -/
def State.Continues (s t : State) : Prop := t.params = s.params ∧ s.trace <+: t.trace

theorem State.Continues.refl (s : State) : s.Continues s := ⟨rfl, List.prefix_rfl⟩

theorem State.Continues.trans {s t u : State} (h : s.Continues t) (h' : t.Continues u) : s.Continues u :=
  ⟨h'.1.trans h.1, h.2.trans h'.2⟩

/-- What keeps the parameters and the trace. -/
theorem State.Continues.same {s t u : State} (h : s.Continues t) (hp : u.params = t.params)
    (ht : u.trace = t.trace) : s.Continues u := ⟨hp.trans h.1, ht ▸ h.2⟩

/-- What keeps the parameters and adds one event to the trace. -/
theorem State.Continues.emits {s t u : State} (h : s.Continues t) (hp : u.params = t.params) {e : Event}
    (ht : u.trace = t.trace ++ [e]) : s.Continues u := ⟨hp.trans h.1, h.2.trans ⟨[e], ht.symm⟩⟩

/-- TIMEOUT emits an event; no other environment step touches the trace (R33, R135). -/
theorem State.Continues.envStep {s t : State} (h : s.Continues t) (e : EnvStep) : s.Continues (t.envStep e) := by
  refine ⟨(envStep_params t e).trans h.1, h.2.trans ?_⟩
  rcases envStep_cases t e with h | ⟨_, ⟨_, _, _, h⟩ | ⟨_, _, _, h⟩ | ⟨_, _, h⟩ | ⟨_, _, h⟩ |
    ⟨_, _, h⟩ | ⟨_, _, _, h⟩ | ⟨_, _, _, h⟩ | ⟨_, _, _, h⟩⟩ <;> simp [h]

/-- Every event of a request leaves the parameters, and adds to the trace at its end. -/
theorem requestsKeep_continues {s : State} (hp : s.params.ok = true) : RequestsKeep s.Continues where
  env := ⟨fun _ e h => h.envStep e, fun _ _ h => h.same rfl rfl⟩
  raise _ _ h := h.same rfl rfl
  result _ _ h := h.same rfl rfl
  emit _ _ h := h.emits rfl rfl
  answered _ _ h := h.same rfl rfl
  arm _ h := h.emits rfl rfl
  took _ h := h.emits rfl rfl
  chk _ h := h.emits rfl rfl
  paramsOk _ h := h.1 ▸ hp
  inputs _ _ h := h.same rfl rfl
  cancel _ h := h.emits rfl rfl
  armTx _ h _ := h.emits rfl rfl
  writeTx _ _ _ h _ := h.same rfl rfl
  writeStage _ _ _ h _ := h.same rfl rfl
  clear _ h := h.emits rfl rfl
  setHs _ _ h := h.same rfl rfl
  unhold _ h := h.same rfl rfl
  hold _ h := h.same rfl rfl
  wait _ _ h _ := h.same rfl rfl
  idle _ h := h.same rfl rfl
  dispatch _ _ _ _ _ h _ := h.same rfl rfl
  mark _ h := h.same rfl rfl

/-- A driver primitive is one event, which emits what it did (R93 to R98). -/
theorem State.Continues.primitive {s t u : State} {i : Instr} (h : s.Continues t) (hi : i.isPrimitive = true)
    (hexec : exec i t = .next u) : s.Continues u := by
  cases i with
  | armRx | armTx | getRemaining | chkClrDone | cancel =>
    obtain ⟨_, _, hu⟩ := guarded_next hexec
    cases hu
    exact h.emits rfl rfl
  | beginReceive | poll | send | armAndClearPending | waitRxAndClear | dmaCancel | dispatchReturn => cases hi

end Sys2Proof.Machine

/-! ## The obligations of 10_state.md -/

namespace Sys2Proof.Proofs.MachineState

open Sys2Proof Sys2Proof.Machine

/-- Settles O60: every event a request can reach keeps the invariant, and the invariant lays out no driver call. -/
theorem stepKeepsTheInvariant : Obligations.StepKeepsTheInvariant :=
  fun _ _ hs hstep => requestsKeep_inv.of_step hs.noCall hs hstep

/-- Settles O56: a driver call laid out alone emits one event, and every other step adds to the trace at its end. -/
theorem traceOnlyGrows : Obligations.TraceOnlyGrows := by
  intro s t hstep
  obtain ⟨hok, _, hmove⟩ := step_next hstep
  have hcont : s.Continues t := by
    cases hmove with
    | call _ hdec hexec =>
      have taken : s.Continues { s with driverCall := none } := .same (.refl s) rfl rfl
      exact taken.primitive (isPrimitive_of_decode_primitive hdec) hexec
    | stutter hcall | request hcall | illegal hcall | resume hcall | hostRead hcall | hostWrite hcall | env hcall =>
      exact (requestsKeep_continues hok).of_step hcall (.refl s) hstep
  obtain ⟨hparams, new, htrace⟩ := hcont
  exact ⟨hparams, new, htrace.symm⟩

/-! ### The status views (R35 to R37) -/

/-- Bit by bit, TRSTATUS (R35). -/
theorem trstatus_getLsbD (s : State) {i : Nat} (hi : i < 16) : s.trstatus.getLsbD i =
    if i < 2 then s.rxState.code.getLsbD i
    else if i = 2 then s.doneFlag
    else if i = 3 then s.rxGhost
    else if i = 4 then s.answeredFast
    else if i = 5 then s.phase.isDispatching
    else if i = 6 then s.phase.rearm
    else if i = 7 then s.txBusy
    else if i < 10 then s.hsState.code.getLsbD (i - 8)
    else if i < 12 then s.busyOp.code.getLsbD (i - 10)
    else if i = 12 then s.armedSinceReset
    else if i = 13 then s.fault.isSome
    else false := by
  unfold State.trstatus
  refine Eq.trans (BitVec.getLsbD_append ..) ?_
  simp only [BitVec.getLsbD_append]
  interval_cases i <;> simp

/-- A two-bit field of a word whose two bits are those of `c`. -/
theorem extractLsb'_two_eq {x : BitVec 16} {start : Nat} {c : BitVec 2}
    (h0 : x.getLsbD start = c.getLsbD 0) (h1 : x.getLsbD (start + 1) = c.getLsbD 1) :
    x.extractLsb' start 2 = c := by
  refine BitVec.eq_of_getLsbD_eq fun i hi => ?_
  rw [BitVec.getLsbD_extractLsb', decide_eq_true hi, Bool.true_and]
  interval_cases i
  · exact h0
  · exact h1

theorem trstatus_rxState (s : State) : s.trstatus.extractLsb' 0 2 = s.rxState.code :=
  extractLsb'_two_eq (trstatus_getLsbD s (by decide)) (trstatus_getLsbD s (by decide))

theorem trstatus_hsState (s : State) : s.trstatus.extractLsb' 8 2 = s.hsState.code :=
  extractLsb'_two_eq (trstatus_getLsbD s (by decide)) (trstatus_getLsbD s (by decide))

theorem trstatus_busyOp (s : State) : s.trstatus.extractLsb' 10 2 = s.busyOp.code :=
  extractLsb'_two_eq (trstatus_getLsbD s (by decide)) (trstatus_getLsbD s (by decide))

theorem trstatus_reserved (s : State) : s.trstatus.extractLsb' 14 2 = 0 :=
  extractLsb'_two_eq (trstatus_getLsbD s (by decide)) (trstatus_getLsbD s (by decide))

/-- Bits 15:8 of TRFAULT are 0 (R36). -/
theorem trfault_toNat (s : State) : s.trfault.toNat = match s.fault with
    | none => 0
    | some r => r.code.toNat := by
  unfold State.trfault
  cases s.fault with
  | none => rfl
  | some r => exact (BitVec.toNat_append ..).trans (by simp)

/-- An offset within `F` fits in RX_LANDED's 16 bits (R7, R37). -/
theorem rxLandedView_toNat {s : State} (hok : s.params.ok = true) (hle : s.rxLanded ≤ s.params.frameSize) :
    s.rxLandedView.toNat = s.rxLanded := by
  have := Params.frameSize_bounds hok
  exact Nat.mod_eq_of_lt (by omega)

/-- Settles O57: TRSTATUS bit by bit, with each field's code as R35's table has it. -/
theorem statusViewsShowTheState : Obligations.StatusViewsShowTheState := by
  intro s
  have bit {i : Nat} (hi : i < 16) := trstatus_getLsbD s hi
  refine ⟨?rxState, bit (by decide), bit (by decide), bit (by decide), ?dispatching, ?rearm, bit (by decide),
    ?hsState, ?busyOp, bit (by decide), bit (by decide), trstatus_reserved s, ?fault, rxLandedView_toNat⟩
  case rxState => rw [trstatus_rxState]; cases s.rxState <;> rfl
  case dispatching => refine (bit (by decide)).trans ?_; cases s.phase <;> rfl
  case rearm => refine (bit (by decide)).trans ?_; cases s.phase <;> rfl
  case hsState => rw [trstatus_hsState]; cases s.hsState <;> rfl
  case busyOp => rw [trstatus_busyOp]; cases s.busyOp <;> rfl
  case fault =>
    rw [trfault_toNat]
    rcases s.fault with _ | r
    · rfl
    · cases r <;> rfl

end Sys2Proof.Proofs.MachineState

/-! ## What lands in RXBUF (R50, R51, R99) -/

namespace Sys2Proof.Machine

/-- An environment step lands one byte or none. -/
theorem landedBytes_cons (e : EnvStep) (es : List EnvStep) :
    (landedBytes [e] = [] ∧ landedBytes (e :: es) = landedBytes es) ∨
      ∃ b, e = .rxLand b ∧ landedBytes (e :: es) = b :: landedBytes es := by
  cases e with
  | rxLand b => exact .inr ⟨b, rfl, rfl⟩
  | rxComplete | ghostFire | ghostDrop | txByte | timeout => exact .inl ⟨rfl, rfl⟩

/-- RX_LAND is the only environment step that writes RXBUF or moves `rx_landed` (R50). -/
theorem envStep_lands_nothing {e : EnvStep} (he : landedBytes [e] = []) (s : State) :
    (s.envStep e).rxLanded = s.rxLanded ∧ (s.envStep e).rxbuf = s.rxbuf := by
  rcases envStep_cases s e with h | ⟨_, ⟨_, rfl, _⟩ | ⟨_, rfl, _⟩ | ⟨_, _, h⟩ | ⟨_, _, h⟩ | ⟨_, _, h⟩ |
    ⟨_, _, _, h⟩ | ⟨_, _, _, h⟩ | ⟨_, _, _, h⟩⟩
  case inr.inl | inr.inr.inl => cases he
  all_goals rw [h]; exact ⟨rfl, rfl⟩

/-- A byte that does not overrun lands at `rx_landed` (R50, R99). -/
theorem envStep_rxLand {s : State} {b : Byte} (h : (s.envStep (.rxLand b)).fault = none) :
    (s.envStep (.rxLand b)).rxLanded = s.rxLanded + 1 ∧
      (s.envStep (.rxLand b)).rxbuf = s.rxbuf.write s.rxLanded b := by
  have hf : s.fault = none := by
    by_contra hsome
    exact hsome (envStep_faulted (.rxLand b) (Option.isSome_iff_ne_none.mpr hsome) ▸ h)
  by_cases hactive : s.rxState = .active
  · simp [State.envStep, State.rxLand, hf, hactive]
  · simp [State.envStep, State.rxLand, hf, hactive, State.raise] at h

/-- No environment step follows a fault (R141). -/
theorem fault_none_of_runEnv {s : State} {es : List EnvStep} (h : (s.runEnv es).fault = none) :
    s.fault = none := by
  by_contra hsome
  exact hsome (runEnv_faulted es (Option.isSome_iff_ne_none.mpr hsome) ▸ h)

/-- The bytes of a run without a fault stand in RXBUF in order from where `rx_landed` stood, and nothing is written
past them (R50, R51). -/
theorem runEnv_lands (es : List EnvStep) (s : State) (h : (s.runEnv es).fault = none) :
    (s.runEnv es).rxLanded = s.rxLanded + (landedBytes es).length ∧
    (∀ k, k < (landedBytes es).length → (s.runEnv es).rxbuf.read (s.rxLanded + k) = (landedBytes es)[k]?) ∧
    (∀ off, s.rxLanded + (landedBytes es).length ≤ off → (s.runEnv es).rxbuf.read off = s.rxbuf.read off) := by
  induction es generalizing s with
  | nil => exact ⟨rfl, fun k hk => absurd hk (Nat.not_lt_zero k), fun _ _ => rfl⟩
  | cons e es ih =>
    obtain ⟨hcount, hin, hout⟩ := ih (s.envStep e) h
    rw [State.runEnv]
    rcases landedBytes_cons e es with ⟨hnone, hbytes⟩ | ⟨b, rfl, hbytes⟩
    · obtain ⟨hlanded, hbuf⟩ := envStep_lands_nothing hnone s
      rw [hlanded] at hcount hin hout
      rw [hbytes, ← hbuf]
      exact ⟨hcount, hin, hout⟩
    · obtain ⟨hlanded, hbuf⟩ := envStep_rxLand (fault_none_of_runEnv h)
      rw [hlanded] at hcount hin hout
      rw [hbytes, List.length_cons]
      refine ⟨by omega, fun k hk => ?_, fun off hoff => ?_⟩
      · cases k with
        | zero =>
          obtain ⟨_, hbelow⟩ := runEnv_below_landed es (s.envStep (.rxLand b))
          rw [Nat.add_zero, hbelow _ (by omega), hbuf, Memory.read_write_same, List.getElem?_cons_zero]
        | succ k =>
          rw [List.getElem?_cons_succ, ← hin k (by omega)]
          congr 1
          omega
      · rw [hout off (by omega), hbuf, Memory.read_write_other _ _ (by omega)]

/-- Where no byte lands RXBUF stays as it is (R50). -/
theorem runEnv_rxbuf_of_lands_nothing (es : List EnvStep) (s : State) (h : landedBytes es = []) :
    (s.runEnv es).rxbuf = s.rxbuf := by
  induction es generalizing s with
  | nil => rfl
  | cons e es ih =>
    rcases landedBytes_cons e es with ⟨hnone, hbytes⟩ | ⟨b, _, hbytes⟩
    · obtain ⟨_, hbuf⟩ := envStep_lands_nothing hnone s
      exact (ih (s.envStep e) (hbytes ▸ h)).trans hbuf
    · cases hbytes ▸ h

/-- During a transfer the reported count is exact (R96). -/
theorem remaining_of_inTransfer {s : State} (h : s.rxState.inTransfer = true) :
    s.remaining = s.params.frameSize - s.rxLanded := by
  rw [State.remaining, if_pos h]

end Sys2Proof.Machine

/-! ## The host's accesses from a state in which it may act (R41, R42, R44) -/

namespace Sys2Proof.Machine

variable {s : State} {off : Nat} {o : Host.Outcome State Fault Refusal}

theorem hostAccess_within (hr : s.Ready) (hoff : off < s.params.frameSize) : hostAccess s off o = o := by
  obtain ⟨hok, hf, hbusy⟩ := hr
  rw [hostAccess, guarded_ready hok hf, if_neg (not_not_intro hbusy), if_neg (Nat.not_le.mpr hoff)]

theorem hostAccess_outside (hr : s.Ready) (hoff : s.params.frameSize ≤ off) :
    hostAccess s off o = .refused (.offsetOutOfRange off) := by
  obtain ⟨hok, hf, hbusy⟩ := hr
  rw [hostAccess, guarded_ready hok hf, if_neg (not_not_intro hbusy), if_pos hoff]

theorem hostRead_written {v : Byte} (hr : s.Ready) (hoff : off < s.params.frameSize)
    (hv : s.rxbuf.read off = some v) : hostRead .rxbuf off s = .next (s.withResult (some (.byte v))) := by
  simp [hostRead, hostAccess_within hr hoff, hv]

theorem hostRead_unwritten (hr : s.Ready) (hoff : off < s.params.frameSize) (hv : s.rxbuf.read off = none) :
    hostRead .rxbuf off s = .next (s.raise (.uninitRead off)) := by
  simp [hostRead, hostAccess_within hr hoff, hv]

/-- The host writes STAGE only (R42). -/
theorem hostWrite_refused {space : Buffer} (b : Byte) (hspace : space ≠ .stage) (hr : s.Ready)
    (hoff : off < s.params.frameSize) : hostWrite space off b s = .refused (.hostAccessNotGranted space) := by
  cases space with
  | rxbuf | txbuf => exact hostAccess_within hr hoff
  | stage => exact absurd rfl hspace

end Sys2Proof.Machine

/-! ## POLL of a header never written (R44, R111) -/

namespace Sys2Proof.Machine

variable {s : State}

/-- `Rd16` stops at its lower byte where that was never written (R44, R148). -/
theorem rd16_fault {b : Buffer} {off : Nat} (h : s.readByte b off = none) :
    rd16 b off s = .error .faulted (s.raise (.uninitRead off)) := Block.bind_error (bufRead_fault h)

theorem readResolution_fault (h : s.rxbuf.read len1Off = none) :
    readResolution s = .error .faulted (s.raise (.uninitRead len1Off)) :=
  (Block.bind_ok (look_apply _ s)).trans (Block.bind_error (rd16_fault (b := .rxbuf) h))

/-- POLL's case 1 reads `payload_length_1` first, whether the completion is signalled (1a) or not (1b). -/
theorem pollDetect_unwritten_header {arrived : Nat} (hs : s.sched = []) (harrived : 4 ≤ arrived)
    (ha : s.answeredFast = false) (h : s.rxbuf.read len1Off = none) :
    pollDetect arrived s = .error .faulted (s.chkClrDone.raise (.uninitRead len1Off)) := by
  cases hd : s.doneFlag with
  | true => rw [pollDetect_landed hs harrived ha hd]; exact Block.bind_error (readResolution_fault h)
  | false => rw [pollDetect_fast hs harrived ha hd]; exact Block.bind_error (rd16_fault (b := .rxbuf) h)

end Sys2Proof.Machine

/-! ## What the requests do to the three spaces, under every interleaving

`EventsKeep` asks of a property that every environment step keeps it. That RXBUF stays as it is does not survive a
landing, so here the point between two events is a hypothesis, and the events are told apart by what they write. -/

namespace Sys2Proof.Machine

/-- `t` has the three spaces and the schedule of `s`. -/
def State.SameSpaces (s t : State) : Prop :=
  t.rxbuf = s.rxbuf ∧ t.txbuf = s.txbuf ∧ t.stage = s.stage ∧ t.sched = s.sched

/-- `P` speaks of the spaces and the schedule only, and holds across the point between two events. -/
structure OfSpaces (P : State → Prop) : Prop where
  same : ∀ s t, s.SameSpaces t → P s → P t
  gap : Keeps P between

/-- Any byte written to the space keeps `P`. -/
def WritesKeep (P : State → Prop) (space : Buffer) : Prop :=
  ∀ s off b, P s → P (s.writeByte space off b)

variable {P : State → Prop} {α : Type}

theorem keeps_ite_of {c : Prop} [Decidable c] {x y : Block α} (hx : c → Keeps P x) (hy : ¬ c → Keeps P y) :
    Keeps P (if c then x else y) := by
  split
  · exact hx ‹_›
  · exact hy ‹_›

namespace OfSpaces

variable (h : OfSpaces P)
include h

/-- An event that writes no space. -/
theorem event {f : State → State}
    (hf : ∀ s : State, s.SameSpaces (f s) := by exact fun _ => ⟨rfl, rfl, rfl, rfl⟩) : Keeps P (event f) :=
  keeps_event fun s => h.same s _ (hf s)

theorem raise (r : FaultRecord) : Keeps P (raiseFault r : Block α) :=
  keeps_raise fun s => h.same s _ ⟨rfl, rfl, rfl, rfl⟩

theorem complete (r : Result) : Keeps P (complete r) := h.event

/-- An event that writes no space, and the point after it. -/
theorem event_then {f : State → State} {x : Block α} (hx : Keeps P x)
    (hf : ∀ s : State, s.SameSpaces (f s) := by exact fun _ => ⟨rfl, rfl, rfl, rfl⟩) :
    Keeps P (do Machine.event f; between; x) :=
  keeps_bind (h.event hf) fun _ => keeps_bind h.gap fun _ => hx

theorem rd16 (b : Buffer) (off : Nat) : Keeps P (rd16 b off) :=
  have byte (off : Nat) : Keeps P (bufRead b off) := keeps_bufRead fun s => h.same s _ ⟨rfl, rfl, rfl, rfl⟩
  keeps_bind (byte _) fun _ => keeps_bind h.gap fun _ => keeps_bind (byte _) fun _ => keeps_pure _ _

theorem wr16 {space : Buffer} (hw : WritesKeep P space) (off : Nat) (v : Half) : Keeps P (wr16 space off v) :=
  keeps_bind (keeps_bufWrite fun s => hw s _ _) fun _ => keeps_bind h.gap fun _ => keeps_bufWrite fun s => hw s _ _

theorem rearm : Keeps P rearmRx := h.event_then h.event

theorem readResolution : Keeps P readResolution :=
  keeps_bind (keeps_look _ _) fun _ => keeps_bind (h.rd16 _ _) fun _ => keeps_ite (keeps_pure _ _)
    (keeps_bind h.gap fun _ => keeps_bind (h.rd16 _ _) fun _ => keeps_ite
      (keeps_bind h.gap fun _ => keeps_bind (h.rd16 _ _) fun _ => keeps_pure _ _) (keeps_pure _ _))

theorem callChkClrDone : Keeps P callChkClrDone :=
  keeps_callChkClrDone fun s => h.same s _ ⟨rfl, rfl, rfl, rfl⟩

/-! ### POLL (R111) -/

theorem pollLanded : Keeps P pollLanded := by
  refine keeps_bind h.readResolution fun r => ?_
  cases r with
  | len l => exact keeps_pure _ _
  | invalid =>
    exact keeps_bind h.gap fun _ => h.event_then (keeps_bind h.rearm fun _ => keeps_pure _ _)

theorem pollFast (arrived : Nat) : Keeps P (pollFast arrived) :=
  keeps_bind (h.rd16 _ _) fun _ => keeps_ite
    (keeps_bind h.gap fun _ => keeps_bind h.event fun _ => keeps_pure _ _) (keeps_pure _ _)

theorem pollDropCompleted : Keeps P pollDropCompleted :=
  h.event_then (keeps_bind h.rearm fun _ => keeps_bind h.gap fun _ => keeps_bind h.event fun _ => keeps_pure _ _)

theorem pollCompleted : Keeps P pollCompleted :=
  keeps_bind (keeps_look _ _) fun _ => keeps_bind (keeps_look _ _) fun _ => keeps_ite h.pollDropCompleted
    (keeps_bind (h.rd16 _ _) fun _ => keeps_bind h.gap fun _ => keeps_ite
      (keeps_bind (h.rd16 _ _) fun _ => keeps_bind h.gap fun _ => keeps_bind h.event fun _ => keeps_pure _ _)
      h.pollDropCompleted)

theorem pollDetect (arrived : Nat) : Keeps P (pollDetect arrived) :=
  keeps_bind (keeps_look _ _) fun _ => keeps_bind h.callChkClrDone fun _ => keeps_ite
    (keeps_bind h.gap fun _ => keeps_ite h.pollLanded (h.pollFast _))
    (keeps_ite (keeps_bind h.gap fun _ => h.pollCompleted) (keeps_pure _ _))

theorem pollDeliver (rmode : RMode) (f : Resolved) : Keeps P (pollDeliver rmode f) :=
  keeps_bind (keeps_look _ _) fun _ => keeps_bind h.gap fun _ => keeps_ite
    (keeps_bind h.event fun _ => keeps_ite
      (keeps_bind h.gap fun _ => keeps_bind h.rearm fun _ => h.complete _) (h.complete _))
    (keeps_bind (h.rd16 _ _) fun _ => keeps_bind h.gap fun _ =>
      h.event_then (keeps_bind h.event fun _ => h.complete _))

theorem pollBody (rmode : RMode) : Keeps P (pollBody rmode) := by
  refine keeps_bind (keeps_look _ _) fun _ => keeps_bind (keeps_look _ _) fun _ =>
    keeps_ite (h.raise _) (keeps_ite (h.raise _) ?_)
  refine keeps_bind (keeps_look _ _) fun _ =>
    keeps_bind (keeps_callGetRemaining fun s => h.same s _ ⟨rfl, rfl, rfl, rfl⟩) fun _ =>
      keeps_bind h.gap fun _ => keeps_ite (h.raise _) (keeps_bind (h.pollDetect _) fun found => ?_)
  cases found with
  | none => exact h.complete _
  | some f => exact h.pollDeliver rmode f

/-! ### Transmission (R119, R125, R126) -/

theorem copyBytes (htx : WritesKeep P .txbuf) (n off : Nat) : Keeps P (copyBytes off n) := by
  induction n generalizing off with
  | zero => exact keeps_pure _ _
  | succ n ih =>
    exact keeps_bind (keeps_bufRead fun s => h.same s _ ⟨rfl, rfl, rfl, rfl⟩) fun _ =>
      keeps_bind h.gap fun _ => keeps_bind (keeps_bufWrite fun s => htx s _ _) fun _ =>
        keeps_bind h.gap fun _ => ih _

theorem sendFrame (htx : WritesKeep P .txbuf) : Keeps P sendFrame :=
  keeps_bind (keeps_look _ _) fun _ => keeps_bind (h.copyBytes htx _ _) fun _ =>
    h.event

theorem sendBody (htx : WritesKeep P .txbuf) : Keeps P sendBody :=
  have accepted : Keeps P sendAccepted :=
    keeps_bind (h.sendFrame htx) fun _ => keeps_bind (keeps_look _ _) fun _ => keeps_ite
      (keeps_bind h.gap fun _ => keeps_bind h.event fun _ => h.complete _)
      (h.complete _)
  keeps_bind (keeps_look _ _) fun _ => keeps_ite (h.raise _)
    (keeps_bind (h.rd16 _ _) fun _ => keeps_bind h.gap fun _ => keeps_bind (h.rd16 _ _) fun _ =>
      keeps_bind h.gap fun _ => keeps_bind (h.rd16 _ _) fun _ => keeps_bind h.gap fun _ =>
        keeps_ite accepted (h.raise _))

theorem writeReplyFields (hstage : WritesKeep P .stage) (type lr : Half) : Keeps P (writeReplyFields type lr) :=
  have field := h.wr16 hstage
  keeps_bind (keeps_look _ _) fun _ => keeps_bind (field _ _) fun _ => keeps_bind h.gap fun _ =>
    keeps_bind (field _ _) fun _ => keeps_bind h.gap fun _ => keeps_bind (field _ _) fun _ =>
      keeps_bind h.gap fun _ => field _ _

/-- DISPATCH_RETURN writes TXBUF and STAGE only where there is a reply. -/
theorem returnRun {reply : Bool} (htx : reply = true → WritesKeep P .txbuf)
    (hstage : reply = true → WritesKeep P .stage) (type lr : Half) (rearm : Bool) :
    Keeps P (returnRun type rearm reply lr) :=
  have idle : Keeps P (do Machine.event fun s => s.setPhase .idle; Machine.complete .completed) :=
    keeps_bind h.event fun _ => h.complete _
  have answer (hreply : reply = true) : Keeps P (do
      Machine.writeReplyFields type lr
      between
      Machine.sendFrame
      between
      Machine.event fun s => s.setPhase .idle
      Machine.complete .completed) :=
    keeps_bind (h.writeReplyFields (hstage hreply) type lr) fun _ => keeps_bind h.gap fun _ =>
      keeps_bind (h.sendFrame (htx hreply)) fun _ => keeps_bind h.gap fun _ => idle
  h.event_then (keeps_ite
    (keeps_bind h.rearm fun _ => keeps_bind h.gap fun _ => keeps_ite_of answer fun _ => idle)
    (keeps_ite_of answer fun _ => idle))

theorem dispatchReturnBody {reply : Bool} (htx : reply = true → WritesKeep P .txbuf)
    (hstage : reply = true → WritesKeep P .stage) (lr : Half) : Keeps P (dispatchReturnBody reply lr) := by
  refine keeps_bind (keeps_look _ _) fun seen => keeps_ite (h.raise _) ?_
  cases seen.phase with
  | idle => exact h.raise _
  | dispatching type _ _ rearm =>
    exact keeps_ite (h.raise _) (keeps_ite (h.raise _) (h.returnRun htx hstage type lr rearm))

/-! ### The handshake (R130 to R134) -/

theorem armAndClearPendingBody : Keeps P armAndClearPendingBody :=
  h.event_then (keeps_bind (keeps_look _ _) fun _ => keeps_ite
    (h.event_then (h.event_then (keeps_bind h.event fun _ => h.complete _))) (keeps_pure _ _))

theorem hsMatch (t : Half) (l : Nat) : Keeps P (hsMatch t l) :=
  h.event_then (h.event_then (h.event_then (h.event_then (keeps_bind h.event fun _ => h.complete _))))

theorem waitTurn (expected : Half) : Keeps P (waitTurn expected) := by
  refine keeps_bind (keeps_look _ _) fun p => keeps_bind (keeps_look _ _) fun _ => keeps_ite ?_ (keeps_pure _ _)
  refine keeps_bind h.callChkClrDone fun _ => keeps_bind h.gap fun _ =>
    keeps_bind h.readResolution fun r => keeps_bind h.gap fun _ => keeps_bind (h.rd16 _ _) fun t =>
      keeps_bind h.gap fun _ => ?_
  cases awaited p expected t r with
  | some l => exact h.hsMatch t l
  | none => exact h.event_then h.rearm

theorem waitRxAndClearBody (expected : Half) : Keeps P (waitRxAndClearBody expected) :=
  keeps_bind (keeps_look _ _) fun _ => keeps_ite (h.raise _)
    (h.event_then (h.event_then (h.waitTurn expected)))

/-! ### The instructions -/

theorem of_hostRequest {body : Block Unit} {s t : State} (hbody : Keeps P body) (hs : P s)
    (hnext : hostRequest body s = .next t) : P t := by
  obtain ⟨_, _, _, rfl⟩ := hostRequest_next hnext
  exact finish_keeps hbody _ (h.same s _ ⟨rfl, rfl, rfl, rfl⟩ hs)

/-- An instruction keeps `P` where the writes it may make do: SEND and a reply write TXBUF, a reply writes STAGE, and
no instruction writes RXBUF (R42, R127). -/
theorem of_exec {i : Instr} {s t : State}
    (htx : (i = .send ∨ ∃ lr, i = .dispatchReturn true lr) → WritesKeep P .txbuf)
    (hstage : (∃ lr, i = .dispatchReturn true lr) → WritesKeep P .stage) (hs : P s)
    (hnext : exec i s = .next t) : P t := by
  cases i with
  | beginReceive => exact h.of_hostRequest (keeps_bind h.rearm fun _ => h.complete _) hs hnext
  | poll rmode => exact h.of_hostRequest (h.pollBody rmode) hs hnext
  | send => exact h.of_hostRequest (h.sendBody (htx (.inl rfl))) hs hnext
  | armAndClearPending => exact h.of_hostRequest h.armAndClearPendingBody hs hnext
  | waitRxAndClear expected => exact h.of_hostRequest (h.waitRxAndClearBody expected) hs hnext
  | dmaCancel =>
    exact h.of_hostRequest (keeps_bind h.event fun _ => h.complete _) hs hnext
  | dispatchReturn reply lr =>
    exact h.of_hostRequest (h.dispatchReturnBody (fun hr => htx (.inr ⟨lr, by rw [hr]⟩))
      (fun hr => hstage ⟨lr, by rw [hr]⟩) lr) hs hnext
  | armRx | armTx | getRemaining | chkClrDone | cancel =>
    obtain ⟨_, _, hnext⟩ := guarded_next hnext
    cases hnext
    exact h.same s _ ⟨rfl, rfl, rfl, rfl⟩ hs

end OfSpaces

/-! ### Each space as it was -/

/-- No environment step writes TXBUF (R42). -/
theorem ofSpaces_txbuf (m : Memory) : OfSpaces fun s => s.txbuf = m where
  same _ _ hsame hs := let ⟨_, htx, _, _⟩ := hsame; htx.trans hs
  gap := keeps_between ⟨fun s e hs => (envStep_txbuf s e).trans hs, fun _ _ hs => hs⟩

/-- No environment step writes STAGE (R42). -/
theorem ofSpaces_stage (m : Memory) : OfSpaces fun s => s.stage = m where
  same _ _ hsame hs := let ⟨_, _, hstage, _⟩ := hsame; hstage.trans hs
  gap := keeps_between ⟨fun s e hs => (envStep_stage s e).trans hs, fun _ _ hs => hs⟩

/-- RXBUF holds `m`, and no byte lands at the event boundaries still to come (R13, R50). -/
def State.RxUnwritten (m : Memory) (s : State) : Prop :=
  s.rxbuf = m ∧ ∀ burst ∈ s.sched, landedBytes burst = []

/-- A burst in which no byte lands writes no byte of RXBUF. -/
theorem State.RxUnwritten.burst {m : Memory} {s : State} {burst : List EnvStep} {rest : List (List EnvStep)}
    (hs : s.RxUnwritten m) (hsched : s.sched = burst :: rest) :
    (State.runEnv { s with sched := rest } burst).RxUnwritten m := by
  obtain ⟨hbuf, hquiet⟩ := hs
  rw [hsched] at hquiet
  obtain ⟨hburst, hrest⟩ := List.forall_mem_cons.mp hquiet
  refine ⟨(runEnv_rxbuf_of_lands_nothing burst _ hburst).trans hbuf, ?_⟩
  rw [runEnv_sched]
  exact hrest

theorem ofSpaces_rxUnwritten (m : Memory) : OfSpaces (State.RxUnwritten m) where
  same _ _ hsame hs :=
    let ⟨hrx, _, _, hsched⟩ := hsame
    ⟨hrx.trans hs.1, hsched ▸ hs.2⟩
  gap := by
    intro s hs
    rcases between_cases s with ⟨_, hb⟩ | ⟨burst, rest, hsched, hb⟩
    · rw [hb]; exact hs
    · have ht := hs.burst hsched
      rcases hb with ⟨_, hb⟩ | ⟨_, _, hb⟩ | ⟨_, _, hb⟩ <;> rw [hb] <;> exact ht

end Sys2Proof.Machine

/-! ## The obligations of 20_memory.md -/

namespace Sys2Proof.Proofs.MemorySpaces

open Sys2Proof Sys2Proof.Machine

/-- Settles O51: the gates of a host access pass in a ready state below `F`, and each space answers as R42 says. -/
theorem hostAccessRights : Obligations.HostAccessRights := by
  intro s off b rest hbusy
  have ready {i : Input} (ht : Claims.takes s i rest) : State.Ready { s with inputs := rest } :=
    let ⟨hok, hf, _, _⟩ := ht
    ⟨hok, hf, hbusy⟩
  have read {space : Buffer} (ht : Claims.takes s (.hostRead space off) rest) :
      step s = hostRead space off { s with inputs := rest } :=
    let ⟨_, _, hcall, hin⟩ := ht
    step_hostRead hcall hin
  have write {space : Buffer} (ht : Claims.takes s (.hostWrite space off b) rest) :
      step s = hostWrite space off b { s with inputs := rest } :=
    let ⟨_, _, hcall, hin⟩ := ht
    step_hostWrite hcall hin
  refine ⟨fun ht hoff => ?readStage, fun ht hoff => ?readRxbuf, fun ht hoff => ?writeStage,
    fun ht hoff => ?readTxbuf, fun space hspace ht hoff => ?refusedWrite,
    fun space hoff => ⟨fun ht => ?outsideRead, fun ht => ?outsideWrite⟩⟩
  case readStage => exact (read ht).trans (hostAccess_within (ready ht) hoff)
  case readRxbuf =>
    rw [read ht]
    cases hv : s.rxbuf.read off with
    | some v => exact hostRead_written (ready ht) hoff hv
    | none => exact hostRead_unwritten (ready ht) hoff hv
  case writeStage => exact (write ht).trans (hostAccess_within (ready ht) hoff)
  case readTxbuf => exact (read ht).trans (hostAccess_within (ready ht) hoff)
  case refusedWrite => exact (write ht).trans (hostWrite_refused b hspace (ready ht) hoff)
  case outsideRead => exact (read ht).trans (hostAccess_outside (ready ht) hoff)
  case outsideWrite => exact (write ht).trans (hostAccess_outside (ready ht) hoff)

/-- Settles O19: by induction on the environment steps, from any `rx_landed`; here it starts at 0. -/
theorem bytesLandInOrderAndAreCounted : Obligations.BytesLandInOrderAndAreCounted := by
  intro s es _ _ _ hzero hfault
  obtain ⟨hcount, hin, hout⟩ := runEnv_lands es s hfault
  rw [hzero, Nat.zero_add] at hcount hout
  refine ⟨hcount, fun off hoff => ?_, hout, fun htransfer => ?_⟩
  · simpa [hzero] using hin off hoff
  · rw [remaining_of_inTransfer htransfer, runEnv_params, hcount]

/-- Settles O20: what the count says has arrived lies below `rx_landed`, and a landing writes at `rx_landed`. -/
theorem arrivedBytesAreRaceSafe : Obligations.ArrivedBytesAreRaceSafe := by
  intro s es off hstate hoff
  have htransfer : s.rxState.inTransfer = true := by rcases hstate with h | h <;> rw [h] <;> rfl
  rw [remaining_of_inTransfer htransfer] at hoff
  obtain ⟨_, hbelow⟩ := runEnv_below_landed es s
  exact hbelow off (by omega)

/-- Settles O27: `payload_length_1`, at offset 2, is the first field either half of case 1 reads. -/
theorem pollOfUnwrittenHeaderFaults : Obligations.PollOfUnwrittenHeaderFaults := by
  intro s rmode hready hsched hphase harmed hanswered harrived hnone
  have hdetect := pollDetect_unwritten_header (s := (s.withResult none).tookRemaining) hsched harrived hanswered hnone
  refine (execPoll_undisturbed rmode hready hsched hphase harmed).trans ?_
  rw [hdetect]
  rfl

/-- Settles O55: each space as it was is a property of the spaces, which an instruction keeps where its own writes do. -/
theorem buffersHaveOneWriter : Obligations.BuffersHaveOneWriter := by
  intro i s t hnext
  refine ⟨fun ⟨hsend, hreply⟩ => ?txbuf, fun hreply => ?stage, fun hquiet => ?rxbuf⟩
  case txbuf =>
    refine (ofSpaces_txbuf s.txbuf).of_exec (fun hi => ?_) (fun _ _ _ _ hs => hs) rfl hnext
    obtain hi | ⟨lr, hi⟩ := hi
    · exact absurd hi hsend
    · exact absurd hi (hreply lr)
  case stage =>
    exact (ofSpaces_stage s.stage).of_exec (fun _ _ _ _ hs => hs) (fun ⟨lr, hi⟩ => absurd hi (hreply lr)) rfl hnext
  case rxbuf =>
    have hkept : t.RxUnwritten s.rxbuf :=
      (ofSpaces_rxUnwritten s.rxbuf).of_exec (fun _ _ _ _ hs => hs) (fun _ _ _ _ hs => hs) ⟨rfl, hquiet⟩ hnext
    obtain ⟨hbuf, _⟩ := hkept
    exact hbuf

end Sys2Proof.Proofs.MemorySpaces

/-! ## The fields of a request word, as numbers and as a whole (R66) -/

namespace Sys2Proof

theorem opselField_toNat (w : Word) : (opselField w).toNat = w.toNat % 16 := by
  simp [opselField, BitVec.extractLsb'_toNat]

theorem reservedLow_toNat (w : Word) : (reservedLow w).toNat = w.toNat / 16 % 16 := by
  simp [reservedLow, BitVec.extractLsb'_toNat, Nat.shiftRight_eq_div_pow]

theorem modField_toNat (w : Word) : (modField w).toNat = w.toNat / 256 % 4 := by
  simp [modField, BitVec.extractLsb'_toNat, Nat.shiftRight_eq_div_pow]

theorem reservedHigh_toNat (w : Word) : (reservedHigh w).toNat = w.toNat / 1024 % 64 := by
  simp [reservedHigh, BitVec.extractLsb'_toNat, Nat.shiftRight_eq_div_pow]

theorem argField_toNat (w : Word) : (argField w).toNat = w.toNat / 65536 := by
  have hw : w.toNat < 4294967296 := w.isLt
  simp only [argField, BitVec.extractLsb'_toNat, Nat.shiftRight_eq_div_pow]
  omega

/-- The five fields cover the word: no bit lies outside them. -/
theorem word_eq_iff_fields {w v : Word} : w = v ↔
    opselField w = opselField v ∧ reservedLow w = reservedLow v ∧ modField w = modField v ∧
      reservedHigh w = reservedHigh v ∧ argField w = argField v := by
  refine ⟨fun h => by simp [h], fun ⟨hopsel, hlow, hmod, hhigh, harg⟩ => BitVec.eq_of_toNat_eq ?_⟩
  simp only [← BitVec.toNat_inj, opselField_toNat, reservedLow_toNat, modField_toNat, reservedHigh_toNat,
    argField_toNat] at hopsel hlow hmod hhigh harg
  omega

theorem requestWord_eq_iff {o : BitVec 4} {m : BitVec 2} {a : Half} {w : Word} : requestWord o m a = w ↔
    opselField w = o ∧ reservedLow w = 0 ∧ modField w = m ∧ reservedHigh w = 0 ∧ argField w = a := by
  simp only [eq_comm (a := requestWord o m a), word_eq_iff_fields, opselField_requestWord,
    reservedLow_requestWord, modField_requestWord, reservedHigh_requestWord, argField_requestWord]

/-- With the reserved bits 0, a word is made of its three other fields. -/
theorem word_of_fields {o : BitVec 4} {m : BitVec 2} {a : Half} {w : Word}
    (hreserved : reservedLow w = 0 ∧ reservedHigh w = 0) (hopsel : opselField w = o) (hmod : modField w = m)
    (harg : argField w = a) : Code.request (requestWord o m a) = .request w := by
  obtain ⟨hlow, hhigh⟩ := hreserved
  rw [requestWord_eq_iff.mpr ⟨hopsel, hlow, hmod, hhigh, harg⟩]

theorem requestWord_toNat (o : BitVec 4) (m : BitVec 2) (a : Half) :
    (requestWord o m a).toNat = a.toNat * 65536 + m.toNat * 256 + o.toNat := by
  obtain ⟨hopsel, hlow, hmod, hhigh, harg⟩ := requestWord_eq_iff.mp (rfl : requestWord o m a = _)
  simp only [← BitVec.toNat_inj, opselField_toNat, reservedLow_toNat, modField_toNat, reservedHigh_toNat,
    argField_toNat, BitVec.ofNat_eq_ofNat, BitVec.toNat_ofNat, Nat.zero_mod] at hopsel hlow hmod hhigh harg
  omega

/-! ## What each part of the decoder accepts (R67 to R72, R74) -/

variable {w : Word} {c : Byte} {i : Instr}

theorem rmodeOfCode_eq_some_iff {code : BitVec 2} {rmode : RMode} :
    rmodeOfCode code = some rmode ↔ code = rmode.code := by
  revert code
  cases rmode <;> decide

theorem plainRequest_eq_some_iff {j : Instr} :
    plainRequest w j = some i ↔ i = j ∧ modField w = 0 ∧ argField w = 0 := by
  simp only [plainRequest, Option.ite_none_right_eq_some, Option.some.injEq, eq_comm (a := j), and_comm]

theorem pollRequest_eq_some_iff :
    pollRequest w = some i ↔ ∃ rmode : RMode, i = .poll rmode ∧ modField w = rmode.code ∧ argField w = 0 := by
  simp only [pollRequest, Option.ite_none_right_eq_some, Option.map_eq_some_iff, rmodeOfCode_eq_some_iff]
  exact ⟨fun ⟨harg, rmode, hmod, hi⟩ => ⟨rmode, hi.symm, hmod, harg⟩,
    fun ⟨rmode, hi, hmod, harg⟩ => ⟨harg, rmode, hmod, hi.symm⟩⟩

theorem waitRequest_eq_some_iff :
    waitRequest w = some i ↔ i = .waitRxAndClear (argField w) ∧ modField w = 0 := by
  simp only [waitRequest, Option.ite_none_right_eq_some, Option.some.injEq, eq_comm (b := i), and_comm]

/-- A word of DISPATCH_RETURN carries `REPLY` in `MOD` and a well-formed operand (R70, R71). -/
theorem returnRequest_eq_some {w : Word} (h : returnRequest w = some i) :
    ∃ reply : Bool, i = .dispatchReturn reply (argField w) ∧ i.wf = true ∧
      modField w = if reply then 1 else 0 := by
  unfold returnRequest at h
  split_ifs at h with hnone hreply
  · obtain ⟨hmod, harg⟩ := hnone
    cases h
    exact ⟨false, by rw [harg], rfl, hmod⟩
  · cases h
    exact ⟨true, rfl, rfl, hreply⟩

/-- A word the decoder takes has the fields, and so the bits, of the instruction it stands for (R66, R72). -/
theorem encode_of_requestOf (h : requestOf w = some i) : i.wf = true ∧ encode i = .request w := by
  obtain ⟨hreserved, h⟩ := Option.ite_none_left_eq_some.mp h
  have hzero : reservedLow w = 0 ∧ reservedHigh w = 0 := by simpa using hreserved
  have plain {j : Instr} {o : BitVec 4} (h : plainRequest w j = some i) (ho : opselField w = o)
      (hwf : j.wf = true) (hj : encode j = .request (requestWord o 0 0)) :
      i.wf = true ∧ encode i = .request w := by
    obtain ⟨rfl, hmod, harg⟩ := plainRequest_eq_some_iff.mp h
    exact ⟨hwf, hj.trans (word_of_fields hzero ho hmod harg)⟩
  split_ifs at h with h1 h2 h3 h4 h5 h6 h7
  · exact plain h h1 rfl rfl
  · obtain ⟨rmode, rfl, hmod, harg⟩ := pollRequest_eq_some_iff.mp h
    exact ⟨rfl, word_of_fields hzero h2 hmod harg⟩
  · exact plain h h3 rfl rfl
  · exact plain h h4 rfl rfl
  · obtain ⟨rfl, hmod⟩ := waitRequest_eq_some_iff.mp h
    exact ⟨rfl, word_of_fields hzero h5 hmod rfl⟩
  · exact plain h h6 rfl rfl
  · obtain ⟨reply, rfl, hwf, hmod⟩ := returnRequest_eq_some h
    exact ⟨hwf, word_of_fields hzero h7 hmod rfl⟩

theorem encode_of_primitiveOf (h : primitiveOf c = some i) : i.wf = true ∧ encode i = .primitive c := by
  unfold primitiveOf at h
  split_ifs at h <;> cases h <;> exact ⟨rfl, congrArg Code.primitive (Eq.symm ‹c = _›)⟩

/-! ## Decoding and encoding are inverse to each other (R66 to R74) -/

theorem decode_request_eq_ok_iff : decode (.request w) = .ok i ↔ requestOf w = some i := by
  cases h : requestOf w <;> simp [decode, h]

theorem decode_primitive_eq_ok_iff : decode (.primitive c) = .ok i ↔ primitiveOf c = some i := by
  cases h : primitiveOf c <;> simp [decode, h]

theorem decode_encode (h : i.wf = true) : decode (encode i) = .ok i := by
  cases i with
  | beginReceive | send | armAndClearPending | dmaCancel => rfl
  | armRx | armTx | getRemaining | chkClrDone | cancel => rfl
  | poll rmode => cases rmode <;> rfl
  | waitRxAndClear expected => simp [encode, decode_request_eq_ok_iff, requestOf, waitRequest]
  | dispatchReturn reply lr =>
    cases reply with
    | true => simp [encode, decode_request_eq_ok_iff, requestOf, returnRequest]
    | false =>
      have hlr : lr = 0 := by simpa [Instr.wf] using h
      subst hlr
      rfl

/-- The codes the decoder accepts are the encodings of the well-formed instructions, each of its own (R72). -/
theorem decode_eq_ok_iff {c : Code} : decode c = .ok i ↔ i.wf = true ∧ encode i = c := by
  refine ⟨fun h => ?_, fun ⟨hwf, hcode⟩ => hcode ▸ decode_encode hwf⟩
  cases c with
  | request w => exact encode_of_requestOf (decode_request_eq_ok_iff.mp h)
  | primitive c => exact encode_of_primitiveOf (decode_primitive_eq_ok_iff.mp h)

/-! ## The legal words by their fields (R71) -/

/-- The fields a request word may have, one clause for each shape of request (R67 to R71). -/
def LegalFields (w : Word) : Prop :=
  (reservedLow w = 0 ∧ reservedHigh w = 0) ∧
    (((opselField w = 1 ∨ opselField w = 3 ∨ opselField w = 4 ∨ opselField w = 6) ∧
        modField w = 0 ∧ argField w = 0) ∨
      (opselField w = 2 ∧ modField w ≠ 3 ∧ argField w = 0) ∨
      (opselField w = 5 ∧ modField w = 0) ∨
      (opselField w = 7 ∧ (modField w = 1 ∨ modField w = 0 ∧ argField w = 0)))

theorem exists_rmode_code_iff {code : BitVec 2} : (∃ rmode : RMode, code = rmode.code) ↔ code ≠ 3 := by
  refine ⟨fun ⟨rmode, h⟩ => h ▸ by cases rmode <;> decide, fun h => ?_⟩
  obtain rfl | rfl | rfl : code = 0 ∨ code = 1 ∨ code = 2 := by revert code; decide
  · exact ⟨.unrestricted, rfl⟩
  · exact ⟨.onlyPingAndCancel, rfl⟩
  · exact ⟨.allButAdministrativeBundle, rfl⟩

theorem legalFields_of_encode (hwf : i.wf = true) (hcode : encode i = .request w) : LegalFields w := by
  cases i with
  | armRx | armTx | getRemaining | chkClrDone | cancel => cases hcode
  | beginReceive | send | armAndClearPending | dmaCancel | waitRxAndClear expected =>
    cases hcode
    simp [LegalFields]
  | poll rmode =>
    cases hcode
    have hmode : rmode.code ≠ 3 := exists_rmode_code_iff.mp ⟨rmode, rfl⟩
    simpa [LegalFields] using hmode
  | dispatchReturn reply lr =>
    cases hcode
    cases reply with
    | true => simp [LegalFields]
    | false => simpa [LegalFields, Instr.wf] using hwf

theorem exists_encode_of_legalFields (h : LegalFields w) : ∃ i : Instr, i.wf = true ∧ encode i = .request w := by
  obtain ⟨hzero, h⟩ := h
  obtain ⟨hopsel, hmod, harg⟩ | ⟨hopsel, hmod, harg⟩ | ⟨hopsel, hmod⟩ | ⟨hopsel, hmod | ⟨hmod, harg⟩⟩ := h
  · obtain hopsel | hopsel | hopsel | hopsel := hopsel
    · exact ⟨.beginReceive, rfl, word_of_fields hzero hopsel hmod harg⟩
    · exact ⟨.send, rfl, word_of_fields hzero hopsel hmod harg⟩
    · exact ⟨.armAndClearPending, rfl, word_of_fields hzero hopsel hmod harg⟩
    · exact ⟨.dmaCancel, rfl, word_of_fields hzero hopsel hmod harg⟩
  · obtain ⟨rmode, hcode⟩ := exists_rmode_code_iff.mpr hmod
    exact ⟨.poll rmode, rfl, word_of_fields hzero hopsel hcode harg⟩
  · exact ⟨.waitRxAndClear (argField w), rfl, word_of_fields hzero hopsel hmod rfl⟩
  · exact ⟨.dispatchReturn true (argField w), rfl, word_of_fields hzero hopsel hmod rfl⟩
  · exact ⟨.dispatchReturn false 0, rfl, word_of_fields hzero hopsel hmod harg⟩

theorem legalFields_iff_decodes : LegalFields w ↔ ∃ i, decode (.request w) = .ok i := by
  simp only [decode_eq_ok_iff]
  exact ⟨exists_encode_of_legalFields, fun ⟨_, hwf, hcode⟩ => legalFields_of_encode hwf hcode⟩

/-! ## The opcode table's rows (R72) -/

/-- A row compares the five fields one by one: masking a word masks each of its fields. -/
theorem RequestRow.selects_iff (r : RequestRow) (w : Word) : r.selects w = true ↔
    opselField w &&& opselField r.mask = opselField r.pattern ∧
      reservedLow w &&& reservedLow r.mask = reservedLow r.pattern ∧
      modField w &&& modField r.mask = modField r.pattern ∧
      reservedHigh w &&& reservedHigh r.mask = reservedHigh r.pattern ∧
      argField w &&& argField r.mask = argField r.pattern := by
  rw [RequestRow.selects, beq_iff_eq, word_eq_iff_fields]
  simp only [opselField, reservedLow, modField, reservedHigh, argField, BitVec.extractLsb'_and]

/-- Every row fixes `OPSEL` and the reserved bits, the reserved bits at 0 (R66, R72). -/
theorem fields_of_selects {r : RequestRow} (hr : r ∈ requestRows) (h : r.selects w = true) :
    opselField w = opselField r.pattern ∧ reservedLow w = 0 ∧ reservedHigh w = 0 := by
  have hrow : ∀ r ∈ requestRows, opselField r.mask = BitVec.allOnes 4 ∧ reservedLow r.mask = BitVec.allOnes 4 ∧
      reservedHigh r.mask = BitVec.allOnes 6 ∧ reservedLow r.pattern = 0 ∧ reservedHigh r.pattern = 0 := by decide
  obtain ⟨hopsel, hlow, hhigh, hlow0, hhigh0⟩ := hrow r hr
  obtain ⟨ho, hl, _, hh, _⟩ := (r.selects_iff w).mp h
  rw [hopsel, BitVec.and_allOnes] at ho
  rw [hlow, BitVec.and_allOnes, hlow0] at hl
  rw [hhigh, BitVec.and_allOnes, hhigh0] at hh
  exact ⟨ho, hl, hh⟩

/-- What a row compares of `MOD` and `ARG16`, by the `OPSEL` it fixes (R71, R72). -/
theorem operands_of_row : ∀ r ∈ requestRows,
    (opselField r.pattern = 1 ∨ opselField r.pattern = 3 ∨ opselField r.pattern = 4 ∨ opselField r.pattern = 6) ∧
        modField r.mask = BitVec.allOnes 2 ∧ modField r.pattern = 0 ∧
        argField r.mask = BitVec.allOnes 16 ∧ argField r.pattern = 0 ∨
      opselField r.pattern = 2 ∧ argField r.mask = BitVec.allOnes 16 ∧ argField r.pattern = 0 ∨
      opselField r.pattern = 5 ∧ modField r.mask = BitVec.allOnes 2 ∧ modField r.pattern = 0 ∨
      opselField r.pattern = 7 ∧ modField r.mask = 2 ∧ modField r.pattern = 0 := by decide

theorem high_bit_clear_iff {m : BitVec 2} : m &&& 2 = 0 ↔ m = 1 ∨ m = 0 := by
  revert m
  decide

theorem legalFields_of_selects {r : RequestRow} (hr : r ∈ requestRows) (h : r.selects w = true)
    (hfields : fieldConstraints w = true) : LegalFields w := by
  obtain ⟨hopsel, hzero⟩ := fields_of_selects hr h
  obtain ⟨_, _, hmod, _, harg⟩ := (r.selects_iff w).mp h
  refine ⟨hzero, ?_⟩
  obtain ⟨ho, hm, hm0, ha, ha0⟩ | ⟨ho, ha, ha0⟩ | ⟨ho, hm, hm0⟩ | ⟨ho, hm, hm0⟩ := operands_of_row r hr
  · rw [hm, BitVec.and_allOnes, hm0] at hmod
    rw [ha, BitVec.and_allOnes, ha0] at harg
    exact .inl ⟨hopsel ▸ ho, hmod, harg⟩
  · rw [ha, BitVec.and_allOnes, ha0] at harg
    have ho : opselField w = 2 := hopsel.trans ho
    have hmode : modField w ≠ 3 := by simpa [fieldConstraints, ho] using hfields
    exact .inr (.inl ⟨ho, hmode, harg⟩)
  · rw [hm, BitVec.and_allOnes, hm0] at hmod
    exact .inr (.inr (.inl ⟨hopsel.trans ho, hmod⟩))
  · rw [hm, hm0] at hmod
    have ho : opselField w = 7 := hopsel.trans ho
    have hnone : modField w = 0 → argField w = 0 := by simpa [fieldConstraints, ho, imp_iff_not_or] using hfields
    exact .inr (.inr (.inr ⟨ho, (high_bit_clear_iff.mp hmod).imp_right fun h => ⟨h, hnone h⟩⟩))

/-- Every well-formed instruction's code stands in the opcode table (R72, R74). -/
theorem encodes_inTable : ∀ i : Instr, Laws.Encodes.Statement i
  | .beginReceive => Laws.Encodes.beginReceive
  | .poll rmode => Laws.Encodes.poll rmode
  | .send => Laws.Encodes.send
  | .armAndClearPending => Laws.Encodes.armAndClearPending
  | .waitRxAndClear expected => Laws.Encodes.waitRxAndClear expected
  | .dmaCancel => Laws.Encodes.dmaCancel
  | .dispatchReturn reply lr => Laws.Encodes.dispatchReturn reply lr
  | .armRx => Laws.Encodes.armRx
  | .armTx => Laws.Encodes.armTx
  | .getRemaining => Laws.Encodes.getRemaining
  | .chkClrDone => Laws.Encodes.chkClrDone
  | .cancel => Laws.Encodes.cancel

theorem selects_of_encode (hwf : i.wf = true) (hcode : encode i = .request w) :
    (∃ r ∈ requestRows, r.selects w = true) ∧ fieldConstraints w = true := by
  have hrow := encodes_inTable i hwf
  simp only [Laws.Encodes.inTable, hcode, Bool.and_eq_true, List.any_eq_true] at hrow
  obtain ⟨⟨_, hselects⟩, hfields⟩ := hrow
  exact ⟨hselects, hfields⟩

/-- `OPSEL` tells the rows apart, and every row fixes it (R67, R72). -/
theorem selects_unique {r r' : RequestRow} (hr : r ∈ requestRows) (hr' : r' ∈ requestRows)
    (h : r.selects w = true) (h' : r'.selects w = true) : r = r' := by
  have hdistinct : ∀ r ∈ requestRows, ∀ r' ∈ requestRows,
      opselField r.pattern = opselField r'.pattern → r = r' := by decide
  obtain ⟨hopsel, _⟩ := fields_of_selects hr h
  obtain ⟨hopsel', _⟩ := fields_of_selects hr' h'
  exact hdistinct r hr r' hr' (hopsel.symm.trans hopsel')

end Sys2Proof

/-! ## The obligations of 30_encoding.md -/

namespace Sys2Proof.Proofs.Encoding

open Sys2Proof Sys2Proof.Machine Sys2Proof.Claims

/-- R71's list is what the legal fields leave out, at each `OPSEL`. -/
theorem illegalWord_iff (w : Word) : illegalWord w.toNat ↔ ¬ LegalFields w := by
  have hreply : w.toNat / 256 % 2 = w.toNat / 256 % 4 % 2 := by omega
  have hopsel : w.toNat % 16 = 0 ∨ w.toNat % 16 = 1 ∨ w.toNat % 16 = 2 ∨ w.toNat % 16 = 3 ∨ w.toNat % 16 = 4 ∨
      w.toNat % 16 = 5 ∨ w.toNat % 16 = 6 ∨ w.toNat % 16 = 7 ∨ 8 ≤ w.toNat % 16 := by omega
  have hmod : w.toNat / 256 % 4 < 4 := by omega
  simp only [illegalWord, LegalFields, ne_eq, ← BitVec.toNat_inj, opselField_toNat, reservedLow_toNat, modField_toNat,
    reservedHigh_toNat, argField_toNat, BitVec.ofNat_eq_ofNat, BitVec.toNat_ofNat, Nat.reducePow, Nat.reduceMod, hreply]
  generalize w.toNat % 16 = opsel, w.toNat / 16 % 16 = low, w.toNat / 256 % 4 = mod, w.toNat / 1024 % 64 = high,
    w.toNat / 65536 = arg at *
  obtain rfl | rfl | rfl | rfl | rfl | rfl | rfl | rfl | hopsel := hopsel
  all_goals simp
  all_goals omega

/-- Settles O3: each request word's fields are its instruction's, and each primitive code is read back. -/
theorem decodeUndoesEncode : Obligations.DecodeUndoesEncode := fun _ hwf => decode_encode hwf

/-- Settles O4: the decoder reads every field, and requires 0 of each bit that no operand uses. -/
theorem acceptedCodesAreEncodings : Obligations.AcceptedCodesAreEncodings := fun _ _ h => decode_eq_ok_iff.mp h

/-- Settles O5: the rows compare field by field, and each row has an `OPSEL` of its own. -/
theorem decoderFollowsTheTable : Obligations.DecoderFollowsTheTable := by
  refine ⟨fun w => ⟨fun ⟨i, hdec⟩ => ?_, fun ⟨⟨r, hr, hselects⟩, hfields⟩ => ?_⟩,
    fun w r hr r' hr' h h' => selects_unique hr hr' h h'⟩
  · obtain ⟨hwf, hcode⟩ := decode_eq_ok_iff.mp hdec
    exact selects_of_encode hwf hcode
  · exact legalFields_iff_decodes.mp (legalFields_of_selects hr hselects hfields)

/-- R143: an undecodable word faults before any other event of the request. -/
theorem step_of_illegal {s : State} {w : Word} {during : List (List EnvStep)} {rest : List Input}
    (htakes : takes s (.request w during) rest) (hbusy : s.busyOp = .none)
    (hdec : ∀ i, decode (.request w) ≠ .ok i) :
    step s = .next { s with
      inputs := rest, sched := during, result := none, fault := some (.illegalRequest w) } := by
  obtain ⟨hparams, hfault, hcall, hinput⟩ := htakes
  rw [step_request hcall hinput]
  cases hd : decode (.request w) with
  | ok i => exact absurd hd (hdec i)
  | error e => exact hostRequest_ready hparams hfault hbusy

/-- Settles O6: R71's list is the complement of the legal fields, and the words outside them do not decode. -/
theorem illegalWordsFault : Obligations.IllegalWordsFault := by
  have hillegal (w : Word) : illegalWord w.toNat ↔ ∀ i, decode (.request w) ≠ .ok i := by
    rw [illegalWord_iff, legalFields_iff_decodes, not_exists]
  exact ⟨hillegal, fun _ w _ _ htakes hbusy h => step_of_illegal htakes hbusy ((hillegal w).mp h)⟩

/-- `ARG16` in the upper half of a word, the rest below it (R66). -/
theorem requestWord_eq_ofNat (o : BitVec 4) (m : BitVec 2) (a : Half) :
    requestWord o m a = BitVec.ofNat 32 (a.toNat * 65536 + (m.toNat * 256 + o.toNat)) := by
  refine BitVec.eq_of_toNat_eq ?_
  have ha := a.isLt
  have hm := m.isLt
  have ho := o.isLt
  rw [requestWord_toNat, BitVec.toNat_ofNat]
  omega

/-- The word of a reply as R75 writes it, `(n << 16) | 0x107`. -/
theorem replyWord_eq_shift_or (n : Half) : requestWord 7 1 n = (BitVec.ofNat 32 n.toNat <<< 16) ||| 0x00000107 := by
  have hn : n.toNat < 65536 := n.isLt
  have hshift : (n.toNat % 2 ^ 32) <<< 16 % 2 ^ 32 = 2 ^ 16 * n.toNat := by rw [Nat.shiftLeft_eq]; omega
  have hfields : (requestWord 7 1 n).toNat = 2 ^ 16 * n.toNat + 0x107 := by
    rw [requestWord_toNat, Nat.mul_comm, Nat.add_assoc]; rfl
  refine BitVec.eq_of_toNat_eq ?_
  rw [BitVec.toNat_or, BitVec.toNat_shiftLeft, BitVec.toNat_ofNat, hshift]
  exact hfields.trans (Nat.two_pow_add_eq_or_of_lt (by decide) _)

/-- Settles O1: the words without an operand are computed, those with one are read off their fields. -/
theorem requestWordsAreTheTables : Obligations.RequestWordsAreTheTables :=
  ⟨rfl, rfl, rfl, rfl, rfl, rfl, fun t => congrArg Code.request (requestWord_eq_ofNat 5 0 t), rfl, rfl,
    fun n => congrArg Code.request (replyWord_eq_shift_or n)⟩

/-- Settles O2: each code written out is computed. -/
theorem writtenOutWordsDecode : Obligations.WrittenOutWordsDecode := ⟨rfl, rfl, rfl, rfl, rfl, rfl⟩

end Sys2Proof.Proofs.Encoding

/-! ## The layout of a frame (R61, R79 to R82) -/

namespace Sys2Proof.Machine

/-- The two sizes of R6: a legal frame holds `N` payload bytes and eight bytes of fields (R6, R7). -/
theorem Params.frameSize_eq_payloadCap_add {p : Params} (hp : p.ok = true) : p.frameSize = p.payloadCap + 8 := by
  have hsize : 12 + p.authTagSize ≤ p.frameSize := by
    simp only [Params.ok, Bool.and_eq_true, decide_eq_true_eq] at hp
    omega
  rw [Params.payloadCap]
  omega

@[simp] theorem bytesOf16_length (v : Half) : (bytesOf16 v).length = 2 := rfl

@[simp] theorem bytesOf16_le16 (lo hi : Byte) : bytesOf16 (le16 lo hi) = [lo, hi] := by simp [bytesOf16]

/-- The bytes of a half, anywhere in a string, read back as the half (R46, R79). -/
theorem fieldAt_append_bytesOf16 {pre : List Byte} {off : Nat} (v : Half) (post : List Byte)
    (hoff : off = pre.length) : fieldAt (pre ++ (bytesOf16 v ++ post)) off = v := by
  subst hoff
  have hlo : (pre ++ (bytesOf16 v ++ post)).getD pre.length 0 = loByte v := by simp [bytesOf16]
  have hhi : (pre ++ (bytesOf16 v ++ post)).getD (pre.length + 1) 0 = hiByte v := by simp [bytesOf16]
  rw [fieldAt, hlo, hhi, le16_bytes]

/-- A field inside a string, written out again, is the two bytes it was read from (R46, R79). -/
theorem bytesOf16_fieldAt {b : List Byte} {off : Nat} (h : off + 1 < b.length) :
    bytesOf16 (fieldAt b off) = (b.drop off).take 2 := by
  have hlo : b.getD off 0 = b[off] := List.getD_eq_getElem b 0 (by omega)
  have hhi : b.getD (off + 1) 0 = b[off + 1] := List.getD_eq_getElem b 0 h
  rw [fieldAt, hlo, hhi, bytesOf16_le16, List.drop_eq_getElem_cons (by omega), List.drop_eq_getElem_cons h]
  rfl

@[simp] theorem serializeFrame_length (fr : Frame) : (serializeFrame fr).length = fr.pay.length + 8 := by
  simp only [serializeFrame, List.length_append, bytesOf16_length]
  omega

/-! ### What stands at each offset of a serialized frame -/

theorem fieldAt_typeOff_serializeFrame (fr : Frame) : fieldAt (serializeFrame fr) typeOff = fr.type := by
  rw [serializeFrame, List.append_assoc, List.append_assoc, List.append_assoc]
  exact fieldAt_append_bytesOf16 (pre := []) fr.type _ rfl

theorem fieldAt_len1Off_serializeFrame (fr : Frame) : fieldAt (serializeFrame fr) len1Off = fr.len1 := by
  rw [serializeFrame, List.append_assoc, List.append_assoc, List.append_assoc]
  exact fieldAt_append_bytesOf16 fr.len1 _ rfl

theorem payload_serializeFrame (fr : Frame) :
    ((serializeFrame fr).drop payOff).take fr.pay.length = fr.pay := by
  have hdrop : (serializeFrame fr).drop payOff = fr.pay ++ (bytesOf16 fr.len2 ++ bytesOf16 fr.valid) := by
    rw [serializeFrame, List.append_assoc, List.append_assoc]
    exact List.drop_left (l₁ := bytesOf16 fr.type ++ bytesOf16 fr.len1)
  rw [hdrop, List.take_left]

/-- The offset counted back from `F` is the end of the payload. -/
theorem fieldAt_len2Off_serializeFrame {p : Params} {fr : Frame} (hsize : p.frameSize = fr.pay.length + 8) :
    fieldAt (serializeFrame fr) (len2Off p) = fr.len2 := by
  rw [serializeFrame, List.append_assoc]
  refine fieldAt_append_bytesOf16 fr.len2 _ ?_
  simp only [len2Off, hsize, List.length_append, bytesOf16_length]
  omega

theorem fieldAt_validOff_serializeFrame {p : Params} {fr : Frame} (hsize : p.frameSize = fr.pay.length + 8) :
    fieldAt (serializeFrame fr) (validOff p) = fr.valid := by
  rw [serializeFrame, ← List.append_nil (bytesOf16 fr.valid)]
  refine fieldAt_append_bytesOf16 fr.valid _ ?_
  simp only [validOff, hsize, List.length_append, bytesOf16_length]
  omega

/-! ### The two directions (R82) -/

theorem deserializeFrame_serializeFrame {p : Params} (hp : p.ok = true) {fr : Frame}
    (hpay : fr.pay.length = p.payloadCap) : deserializeFrame p (serializeFrame fr) = fr := by
  have hsize : p.frameSize = fr.pay.length + 8 := hpay ▸ Params.frameSize_eq_payloadCap_add hp
  rw [deserializeFrame, fieldAt_typeOff_serializeFrame, fieldAt_len1Off_serializeFrame, ← hpay,
    payload_serializeFrame, fieldAt_len2Off_serializeFrame hsize, fieldAt_validOff_serializeFrame hsize]

/-- A piece of a string and what follows it. -/
theorem take_drop_append_drop (b : List Byte) {off n next : Nat} (h : next = off + n) :
    (b.drop off).take n ++ b.drop next = b.drop off := by
  rw [h, ← List.drop_drop, List.take_append_drop]

/-- The five fields are consecutive pieces that cover the whole string (R61). -/
theorem serializeFrame_deserializeFrame {p : Params} (hp : p.ok = true) {b : List Byte}
    (hb : b.length = p.frameSize) : serializeFrame (deserializeFrame p b) = b := by
  have hsize := Params.frameSize_eq_payloadCap_add hp
  have htype : bytesOf16 (fieldAt b typeOff) = (b.drop typeOff).take 2 := bytesOf16_fieldAt (by rw [typeOff]; omega)
  have hlen1 : bytesOf16 (fieldAt b len1Off) = (b.drop len1Off).take 2 :=
    bytesOf16_fieldAt (by rw [len1Off]; omega)
  have hlen2 : bytesOf16 (fieldAt b (len2Off p)) = (b.drop (len2Off p)).take 2 :=
    bytesOf16_fieldAt (by rw [len2Off]; omega)
  have hvalid : bytesOf16 (fieldAt b (validOff p)) = b.drop (validOff p) := by
    rw [bytesOf16_fieldAt (by rw [validOff]; omega), List.take_of_length_le (by rw [List.length_drop, validOff]; omega)]
  have hlen1Off : len1Off = typeOff + 2 := rfl
  have hpayOff : payOff = len1Off + 2 := rfl
  have hlen2Off : len2Off p = payOff + p.payloadCap := by rw [len2Off, payOff]; omega
  have hvalidOff : validOff p = len2Off p + 2 := by rw [validOff, len2Off]; omega
  calc serializeFrame (deserializeFrame p b)
      = (b.drop typeOff).take 2 ++ ((b.drop len1Off).take 2 ++ ((b.drop payOff).take p.payloadCap ++
          ((b.drop (len2Off p)).take 2 ++ b.drop (validOff p)))) := by
        simp only [serializeFrame, deserializeFrame, htype, hlen1, hlen2, hvalid, List.append_assoc]
    _ = b.drop typeOff := by
        rw [take_drop_append_drop b hvalidOff, take_drop_append_drop b hlen2Off, take_drop_append_drop b hpayOff,
          take_drop_append_drop b hlen1Off]
    _ = b := List.drop_zero

/-! ## What the length functions and the checks decide (R84, R85, R87, R89) -/

theorem resolveFull_of_len1 {len1 : Half} (valid len2 : Half) (h : len1 ≠ 0) :
    resolveFull len1 valid len2 = .len len1.toNat := if_pos h

theorem resolveFull_of_valid {valid : Half} (len2 : Half) (h : valid ≠ 0) :
    resolveFull 0 valid len2 = .len len2.toNat :=
  (if_neg (not_not_intro rfl)).trans (if_pos h)

theorem resolveCompleted_of_valid {valid : Half} (len2 : Half) (h : valid ≠ 0) :
    resolveCompleted false valid len2 = some len2.toNat := if_pos ⟨rfl, h⟩

/-- What `well_formed` decides (R63, R87). -/
theorem wellFormed_iff (p : Params) (fr : Frame) : wellFormed p fr = true ↔
    fr.valid ≠ 0 ∧ fr.len2.toNat ≤ p.payloadCap ∧ (fr.len1 = 0 ∨ fr.len1 = fr.len2) := by
  simp [wellFormed, and_assoc]

/-- The two length fields of a well-formed frame never contradict each other (R63, R84). -/
theorem resolveFull_of_wellFormed {p : Params} {fr : Frame} (h : wellFormed p fr = true) :
    resolveFull fr.len1 fr.valid fr.len2 = .len fr.len2.toNat := by
  obtain ⟨hvalid, _, hlen⟩ := (wellFormed_iff p fr).mp h
  by_cases hzero : fr.len1 = 0
  · rw [hzero, resolveFull_of_valid _ hvalid]
  · rw [resolveFull_of_len1 _ _ hzero, hlen.resolve_left hzero]

theorem resolveCompleted_of_wellFormed {p : Params} {fr : Frame} (h : wellFormed p fr = true) :
    resolveCompleted false fr.valid fr.len2 = some fr.len2.toNat := by
  obtain ⟨hvalid, _⟩ := (wellFormed_iff p fr).mp h
  exact resolveCompleted_of_valid fr.len2 hvalid

/-- A reply frame has one length in both fields and a flag that is not 0 (R90). -/
theorem wellFormed_frameFields {p : Params} (type : Half) {lr : Half} (pay : List Byte)
    (h : lr.toNat ≤ p.payloadCap) : wellFormed p (frameFields type lr pay) = true :=
  (wellFormed_iff p _).mpr ⟨show Config.replyValid ≠ 0 by decide, h, .inr rfl⟩

/-- The three reasons to drop a Command Message (R89). -/
theorem cmdCheck_eq_drop_iff (p : Params) (l : Nat) (pay : List Byte) : cmdCheck p l pay = .drop ↔
    l < 4 ∨ (fieldAt pay 2).toNat ≠ l - 4 ∨ p.cmdCap < (fieldAt pay 2).toNat := by
  rw [cmdCheck]
  split_ifs with hshort hlength hauth
  · simp [hshort]
  · simp [hlength]
  · simp [hshort, hlength]
  · simp [hshort, hlength]

end Sys2Proof.Machine

/-! ## The obligations of 40_codec.md -/

namespace Sys2Proof.Proofs.Codec

open Sys2Proof Sys2Proof.Machine

/-- Settles O7: each field is read back at its own offset, and the fields cover the `F` bytes in order. -/
theorem frameLayoutRoundTrips : Obligations.FrameLayoutRoundTrips := fun _ hp =>
  ⟨fun _ hpay => deserializeFrame_serializeFrame hp hpay, fun _ hb => serializeFrame_deserializeFrame hp hb⟩

/-- Settles O8: a well-formed frame's `len1`, where it is not 0, is its `len2`, and its `valid` is not 0. -/
theorem completionPathsAgreeOnWellFormedFrames : Obligations.CompletionPathsAgreeOnWellFormedFrames := fun _ =>
  ⟨fun _ h => ⟨resolveFull_of_wellFormed h, resolveCompleted_of_wellFormed h⟩,
    fun fr hlen1 hvalid => ⟨resolveFull_of_len1 fr.valid fr.len2 hlen1, by simp [resolveCompleted, hvalid]⟩,
    fun type _ pay h => wellFormed_frameFields type pay h⟩

/-- Settles O9: of the three reasons to drop, `n > M` cannot hold when `n = L - 4` and `L <= N`. -/
theorem commandCheckAcceptsExactLengths : Obligations.CommandCheckAcceptsExactLengths := by
  intro p l pay _ hl
  have hcap : l - 4 ≤ p.cmdCap := Nat.sub_le_sub_right hl 4
  rw [ne_eq, cmdCheck_eq_drop_iff]
  omega

end Sys2Proof.Proofs.Codec

/-! ## The driver primitives, each one event (R93 to R98) -/

namespace Sys2Proof.Machine

variable {s : State}

theorem exec_armRx (s : State) :
    exec .armRx s = driverEvent (fun s => s.armRx.withResult (some .completed)) s := rfl

theorem exec_armTx (s : State) :
    exec .armTx s = driverEvent (fun s => s.armTx.withResult (some .completed)) s := rfl

theorem exec_getRemaining (s : State) :
    exec .getRemaining s = driverEvent (fun s => s.tookRemaining.withResult (some (.remaining s.remaining))) s := rfl

theorem exec_chkClrDone (s : State) :
    exec .chkClrDone s = driverEvent (fun s => s.chkClrDone.withResult (some (.flag s.doneFlag))) s := rfl

theorem exec_cancel (s : State) :
    exec .cancel s = driverEvent (fun s => s.cancelRx.withResult (some .completed)) s := rfl

/-- Outside a transfer the count is the one `DMA_REMAINING_IDLE` sets (R96). -/
theorem remaining_of_zero (htransfer : s.rxState.inTransfer = false) (hidle : s.params.remainingIdle = .zero) :
    s.remaining = 0 := by simp [State.remaining, htransfer, hidle]

theorem remaining_of_full (htransfer : s.rxState.inTransfer = false) (hidle : s.params.remainingIdle = .full) :
    s.remaining = s.params.frameSize := by simp [State.remaining, htransfer, hidle]

theorem inTransfer_iff (r : RxState) : r.inTransfer = true ↔ r = .active ∨ r = .donePending := by
  cases r <;> simp [RxState.inTransfer]

theorem not_inTransfer_iff (r : RxState) : r.inTransfer = false ↔ r = .idle ∨ r = .done := by
  cases r <;> simp [RxState.inTransfer]

/-! ## Each environment step where it is enabled (R99 to R102) -/

theorem envStep_rxLand_of_active (b : Byte) (hf : s.fault = none) (hactive : s.rxState = .active) :
    s.envStep (.rxLand b) = { s with
      rxbuf := s.rxbuf.write s.rxLanded b
      rxLanded := s.rxLanded + 1
      rxState := if s.rxLanded + 1 = s.params.frameSize then .donePending else .active } := by
  simp [State.envStep, hf, State.rxLand, hactive]

theorem envStep_rxLand_overruns (b : Byte) (hf : s.fault = none) (hother : s.rxState ≠ .active) :
    s.envStep (.rxLand b) = s.raise (.rxOverrun b s.rxState) := by
  simp [State.envStep, hf, State.rxLand, hother]

theorem envStep_rxComplete (hf : s.fault = none) (hpending : s.rxState = .donePending) :
    s.envStep .rxComplete = { s with doneFlag := true, rxState := .done } := by
  simp [State.envStep, hf, State.rxComplete, hpending]

theorem envStep_ghostFire (hf : s.fault = none) (hghost : s.rxGhost = true) :
    s.envStep .ghostFire = { s with doneFlag := true, rxGhost := false } := by
  simp [State.envStep, hf, State.ghostFire, hghost]

theorem envStep_ghostDrop (hf : s.fault = none) (hghost : s.rxGhost = true) :
    s.envStep .ghostDrop = { s with rxGhost := false } := by
  simp [State.envStep, hf, State.ghostDrop, hghost]

theorem envStep_txByte_last (hf : s.fault = none) (hbusy : s.txBusy = true)
    (hlast : s.txSent + 1 = s.params.frameSize) :
    s.envStep .txByte = { s with
      txBusy := false
      txSent := s.txSent + 1
      txFrames := s.txFrames ++ [s.txPartial ++ [s.txByteAt s.txSent]]
      txPartial := [] } := by
  simp [State.envStep, hf, State.txByte, hbusy, hlast]

theorem envStep_txByte_more (hf : s.fault = none) (hbusy : s.txBusy = true)
    (hmore : s.txSent + 1 ≠ s.params.frameSize) :
    s.envStep .txByte = { s with
      txSent := s.txSent + 1
      txPartial := s.txPartial ++ [s.txByteAt s.txSent] } := by
  simp [State.envStep, hf, State.txByte, hbusy, hmore]

end Sys2Proof.Machine

/-! ## The obligations of 41_dma_link.md -/

namespace Sys2Proof.Proofs.DmaLink

open Sys2Proof Sys2Proof.Machine

/-- Settles O10: ARM_RX's one event, with R25's rule for the ghost. -/
theorem armRxRestartsTheTransfer : Obligations.ArmRxRestartsTheTransfer := by
  intro s hp hf
  rw [ghost_after]
  exact (exec_armRx s).trans (driverEvent_ready hp hf)

/-- Settles O11: nothing but R7 and R141 gates ARM_TX's one event. -/
theorem armTxStartsTheTransmission : Obligations.ArmTxStartsTheTransmission :=
  fun s hp hf => (exec_armTx s).trans (driverEvent_ready hp hf)

/-- Settles O12: the event reports `State.remaining`, which is exact in a transfer and follows the setting outside. -/
theorem getRemainingReportsTheCount : Obligations.GetRemainingReportsTheCount := by
  intro s hp hf
  refine ⟨s.remaining, (exec_getRemaining s).trans (driverEvent_ready hp hf), remaining_le s,
    fun hin => ?_, fun hout => ?_⟩
  · exact remaining_of_inTransfer ((inTransfer_iff _).mpr hin)
  · have htransfer := (not_inTransfer_iff _).mpr hout
    exact ⟨remaining_of_zero htransfer, remaining_of_full htransfer⟩

/-- Settles O13: the test and the clear are one event of the driver. -/
theorem chkClrDoneTestsAndClears : Obligations.ChkClrDoneTestsAndClears :=
  fun s hp hf => (exec_chkClrDone s).trans (driverEvent_ready hp hf)

/-- Settles O14: CANCEL's one event, with R25's rule for the ghost. -/
theorem cancelStopsReception : Obligations.CancelStopsReception := by
  intro s hp hf
  rw [ghost_after]
  exact (exec_cancel s).trans (driverEvent_ready hp hf)

/-- A step that takes an environment step is that environment step, in the state without the input (log 5). -/
theorem step_of_takes_env {s t : State} {e : EnvStep} {rest : List Input} (ht : Claims.takes s (.env e) rest)
    (henv : s.fault = none → State.envStep { s with inputs := rest } e = t) :
    step s = .next t := by
  obtain ⟨hp, hf, hcall, hin⟩ := ht
  rw [step_env hcall hin, guarded_ready (s := { s with inputs := rest }) hp hf, henv hf]

/-- Settles O15: RX_LAND by its test of `rx_state`. -/
theorem landedByteIsStoredOrOverruns : Obligations.LandedByteIsStoredOrOverruns :=
  fun _ b _ ht =>
    ⟨fun hactive => step_of_takes_env ht fun hf => envStep_rxLand_of_active b hf hactive,
      fun hother => step_of_takes_env ht fun hf => envStep_rxLand_overruns b hf hother⟩

/-- Settles O16: each of the three steps where its condition enables it. -/
theorem completionAndGhostSteps : Obligations.CompletionAndGhostSteps :=
  fun _ _ =>
    ⟨fun ht hpending => step_of_takes_env ht fun hf => envStep_rxComplete hf hpending,
      fun ht hghost => step_of_takes_env ht fun hf => envStep_ghostFire hf hghost,
      fun ht hghost => step_of_takes_env ht fun hf => envStep_ghostDrop hf hghost⟩

/-- Settles O17: TX_BYTE by whether the byte it moves is the last. -/
theorem txByteMovesTheNextByte : Obligations.TxByteMovesTheNextByte :=
  fun _ _ ht hbusy =>
    ⟨fun hlast => step_of_takes_env ht fun hf => envStep_txByte_last hf hbusy hlast,
      fun hmore => step_of_takes_env ht fun hf => envStep_txByte_more hf hbusy hmore⟩

end Sys2Proof.Proofs.DmaLink

/-! ## What POLL's detector finds, field by field as it reads them (R83 to R86, R111) -/

namespace Sys2Proof.Machine

open Sys2Proof.Claims

variable {s : State} {len1 len2 valid : Half}

/-- The resolution reads `payload_valid_flag` and `payload_length_2` only where the rule consults them (R84, R88). -/
theorem readResolution_of_fields (hs : s.sched = []) (h1 : s.rxField len1Off = some len1)
    (hv : len1 = 0 → s.rxField (validOff s.params) = some valid)
    (h2 : len1 = 0 → valid ≠ 0 → s.rxField (len2Off s.params) = some len2) :
    readResolution s = .ok (resolveFull len1 valid len2) s := by
  rw [readResolution, Block.bind_ok (look_apply _ s), Block.bind_ok (rd16_rxField hs h1), resolveFull]
  by_cases hlen : len1 = 0
  · rw [if_neg (not_not_intro hlen), if_neg (not_not_intro hlen), Block.bind_ok (between_undisturbed hs),
      Block.bind_ok (rd16_rxField hs (hv hlen))]
    by_cases hvalid : valid = 0
    · rw [if_neg (not_not_intro hvalid), if_neg (not_not_intro hvalid)]
      rfl
    · rw [if_pos hvalid, if_pos hvalid, Block.bind_ok (between_undisturbed hs),
        Block.bind_ok (rd16_rxField hs (h2 hlen hvalid))]
      rfl
  · rw [if_pos hlen, if_pos hlen]
    rfl

theorem pollLanded_len {l : Nat} (h : readResolution s = .ok (.len l) s) : pollLanded s = .ok (some ⟨l, true⟩) s :=
  Block.bind_ok h

theorem pollLanded_invalid (hs : s.sched = []) (h : readResolution s = .ok .invalid s) :
    pollLanded s = .ok none (rearmed (s.emit .dropInvalid)) := by
  have he : (s.emit .dropInvalid).sched = [] := hs
  calc pollLanded s
      = (do between; event fun s => s.emit .dropInvalid; between; rearmRx; return none : Block (Option Resolved)) s :=
        Block.bind_ok h
    _ = .ok none (rearmed (s.emit .dropInvalid)) := by
        rw [Block.bind_ok (between_undisturbed hs), Block.bind_ok (event_apply _ s),
          Block.bind_ok (between_undisturbed he), Block.bind_ok (rearmRx_undisturbed he)]
        rfl

/-- Case 2 without a dispatch: the frame was answered, or its `payload_valid_flag` is clear (R85, R111). -/
theorem pollCompleted_drops (hs : s.sched = [])
    (h : s.answeredFast = true ∨ s.rxField (validOff s.params) = some 0) :
    pollCompleted s = .ok none (rearmed (s.emit .dropCompleted)) := by
  refine Eq.trans ?_ (pollDropCompleted_undisturbed hs)
  rw [pollCompleted, Block.bind_ok (look_apply _ s), Block.bind_ok (look_apply _ s)]
  cases ha : s.answeredFast with
  | true => rfl
  | false =>
    have hv := h.resolve_left (by simp [ha])
    rw [if_neg Bool.false_ne_true, Block.bind_ok (rd16_rxField hs hv), Block.bind_ok (between_undisturbed hs),
      if_neg (not_not_intro rfl)]

/-- Case 2's dispatch, on `payload_length_2` (R85, R111). -/
theorem pollCompleted_hands_up (hs : s.sched = []) (ha : s.answeredFast = false) (hvalid : valid ≠ 0)
    (hv : s.rxField (validOff s.params) = some valid) (h2 : s.rxField (len2Off s.params) = some len2) :
    pollCompleted s = .ok (some ⟨len2.toNat, true⟩) (s.setAnswered false) := by
  rw [pollCompleted_undisturbed hs h2 hv, ha, resolveCompleted_of_valid len2 hvalid]

end Sys2Proof.Machine

/-! ## POLL as one step, case by case (R111) -/

namespace Sys2Proof.Machine

open Sys2Proof.Claims

variable {s t u : State} {rmode : RMode} {type len1 len2 valid : Half}

/-- A value handed back before POLL ends is overwritten when it ends (log 13). -/
theorem handUp_withResult (len : Nat) (rearm : Bool) (r : Option Result) :
    handUp rmode type len rearm (s.withResult r) = handUp rmode type len rearm s := rfl

/-- The hand-off of a frame, undisturbed (R86, R111). -/
theorem finish_pollDeliver (f : Resolved) (hs : s.sched = []) (ht : s.rxField typeOff = some type) :
    finish (pollDeliver rmode f) s = handUp rmode type f.len f.rearm s :=
  finish_ok (pollDeliver_undisturbed rmode f hs ht)

/-- The state at POLL's first event boundary: GET_REMAINING has been called (R111). -/
abbrev State.counted (s : State) : State := (s.withResult none).tookRemaining

section

variable (hr : s.Ready) (hp : s.phase = .idle) (ha : s.armedSinceReset = true)
include hr hp ha

/-- POLL once its checks pass: what the detector finds in the state after the first event boundary (R111, R146). -/
theorem poll_of_gap (hgap : between s.counted = .ok () u) :
    exec (.poll rmode) s = .next (match pollDetect (s.params.frameSize - s.remaining) u with
      | .ok none t => t.withResult (some .noMsg)
      | .ok (some f) t => finish (pollDeliver rmode f) t
      | .error _ t => t) := by
  refine (hostRequest_of_ready hr (pollBody rmode)).trans (congrArg Host.Outcome.next ?_)
  have hle : ¬ s.params.frameSize < s.remaining := Nat.not_lt.mpr (remaining_le s)
  simp only [finish, pollBody, pollRun, Block.bind_apply, look_apply, Block.ite_apply, callGetRemaining_apply, hgap,
    State.withResult_phase, hp, State.withResult_armedSinceReset, ha, State.withResult_params, withResult_remaining,
    if_neg hle, ne_eq, not_true_eq_false, if_false, Bool.true_eq_false]
  cases pollDetect (s.params.frameSize - s.remaining) u with
  | ok found t => cases found <;> rfl
  | error e t => rfl

theorem poll_of_none (hgap : between s.counted = .ok () u)
    (hdetect : pollDetect (s.params.frameSize - s.remaining) u = .ok none (t.withResult none)) :
    exec (.poll rmode) s = .next (t.withResult (some .noMsg)) := by
  rw [poll_of_gap hr hp ha hgap, hdetect]
  rfl

theorem poll_of_found {f : Resolved} (hgap : between s.counted = .ok () u)
    (hdetect : pollDetect (s.params.frameSize - s.remaining) u = .ok (some f) (t.withResult none))
    (ht : t.sched = []) (htype : t.rxField typeOff = some type) :
    exec (.poll rmode) s = .next (handUp rmode type f.len f.rearm t) := by
  rw [poll_of_gap hr hp ha hgap, hdetect]
  exact congrArg Host.Outcome.next
    ((finish_pollDeliver (s := t.withResult none) f ht htype).trans (handUp_withResult f.len f.rearm none))

variable (hs : s.Undisturbed)
include hs

/-- Neither case of R111 applies: no completion, and no header or an answered frame. -/
theorem poll_nothing (h : ¬ (4 ≤ s.params.frameSize - s.remaining ∧ s.answeredFast = false))
    (hd : s.doneFlag = false) :
    exec (.poll rmode) s = .next (s.tookRemaining.chkClrDone.withResult (some .noMsg)) :=
  poll_of_none (t := s.tookRemaining.chkClrDone) hr hp ha (between_undisturbed hs) (pollDetect_nothing h hd)

section

variable (hheader : 4 ≤ s.params.frameSize - s.remaining) (hanswered : s.answeredFast = false)
include hheader hanswered

/-- Case 1b before the arrived bytes cover `payload_length_1`. -/
theorem poll_fast_waits (hd : s.doneFlag = false) (h1 : s.rxField len1Off = some len1)
    (hfast : fastReady (s.params.frameSize - s.remaining) len1 = false) :
    exec (.poll rmode) s = .next (s.tookRemaining.chkClrDone.withResult (some .noMsg)) := by
  refine poll_of_none (t := s.tookRemaining.chkClrDone) hr hp ha (between_undisturbed hs)
    ((pollDetect_fast (s := s.counted) hs hheader hanswered hd).trans ?_)
  rw [pollFast_undisturbed (s := s.counted.chkClrDone) _ hs h1, hfast]
  rfl

/-- Case 1b once they do: the frame is handed up, marked as answered, with no re-arm. -/
theorem poll_fast (hd : s.doneFlag = false) (ht : s.rxField typeOff = some type) (h1 : s.rxField len1Off = some len1)
    (hfast : fastReady (s.params.frameSize - s.remaining) len1 = true) :
    exec (.poll rmode) s =
      .next (handUp rmode type len1.toNat false (s.tookRemaining.chkClrDone.setAnswered true)) := by
  refine poll_of_found (f := ⟨len1.toNat, false⟩) (t := s.tookRemaining.chkClrDone.setAnswered true) hr hp ha
    (between_undisturbed hs) ((pollDetect_fast (s := s.counted) hs hheader hanswered hd).trans ?_) hs ht
  rw [pollFast_undisturbed (s := s.counted.chkClrDone) _ hs h1, if_pos hfast]
  rfl

/-- Case 1a of a frame with a length. -/
theorem poll_landed {l : Nat} (hd : s.doneFlag = true) (ht : s.rxField typeOff = some type)
    (hread : readResolution s.counted.chkClrDone =
      .ok (.len l) s.counted.chkClrDone) :
    exec (.poll rmode) s = .next (handUp rmode type l true s.tookRemaining.chkClrDone) :=
  poll_of_found (t := s.tookRemaining.chkClrDone) hr hp ha (between_undisturbed hs)
    ((pollDetect_landed (s := s.counted) hs hheader hanswered hd).trans (pollLanded_len hread)) hs ht

/-- Case 1a of a frame with none. -/
theorem poll_landed_invalid (hd : s.doneFlag = true)
    (hread : readResolution s.counted.chkClrDone =
      .ok .invalid s.counted.chkClrDone) :
    exec (.poll rmode) s = .next ((rearmed (s.tookRemaining.chkClrDone.emit .dropInvalid)).withResult (some .noMsg)) :=
  poll_of_none (t := rearmed (s.tookRemaining.chkClrDone.emit .dropInvalid)) hr hp ha (between_undisturbed hs)
    ((pollDetect_landed (s := s.counted) hs hheader hanswered hd).trans (pollLanded_invalid hs hread))

end

section

variable (h : ¬ (4 ≤ s.params.frameSize - s.remaining ∧ s.answeredFast = false)) (hd : s.doneFlag = true)
include h hd

/-- Case 2 of a frame that is dropped. -/
theorem poll_completed_drops (hdrop : s.answeredFast = true ∨ s.rxField (validOff s.params) = some 0) :
    exec (.poll rmode) s =
      .next ((rearmed (s.tookRemaining.chkClrDone.emit .dropCompleted)).withResult (some .noMsg)) :=
  poll_of_none (t := rearmed (s.tookRemaining.chkClrDone.emit .dropCompleted)) hr hp ha (between_undisturbed hs)
    ((pollDetect_completed (s := s.counted) hs h hd).trans (pollCompleted_drops (s := s.counted.chkClrDone) hs hdrop))

/-- Case 2 of a frame that is handed up. -/
theorem poll_completed (hanswered : s.answeredFast = false) (hvalid : valid ≠ 0)
    (ht : s.rxField typeOff = some type) (hv : s.rxField (validOff s.params) = some valid)
    (h2 : s.rxField (len2Off s.params) = some len2) :
    exec (.poll rmode) s =
      .next (handUp rmode type len2.toNat true (s.tookRemaining.chkClrDone.setAnswered false)) :=
  poll_of_found (f := ⟨len2.toNat, true⟩) (t := s.tookRemaining.chkClrDone.setAnswered false) hr hp ha
    (between_undisturbed hs) ((pollDetect_completed (s := s.counted) hs h hd).trans
      (pollCompleted_hands_up (s := s.counted.chkClrDone) hs hanswered hvalid hv h2)) hs ht

end

end

end Sys2Proof.Machine

namespace Sys2Proof.Machine

open Sys2Proof.Claims

variable {s : State}

/-! ## BEGIN_RECEIVE, undisturbed (R109, R110) -/

/-- `rearm_rx()` restarts the transfer with R25's rule for the ghost, and clears the marker (R110). -/
theorem rearmed_eq (s : State) : rearmed s = { s with
    rxGhost := if s.rxState = .donePending ∧ s.params.staleCompletion = .mayFire then true else s.rxGhost
    rxState := .active
    rxLanded := 0
    armedSinceReset := true
    answeredFast := false
    trace := s.trace ++ [.armRx] } := by
  rw [ghost_after]
  rfl

/-- BEGIN_RECEIVE, undisturbed (R109). -/
theorem beginReceive_undisturbed (hr : s.Ready) (hs : s.Undisturbed) :
    exec .beginReceive s = .next ((rearmed s).withResult (some .completed)) := by
  refine (hostRequest_of_ready hr beginReceiveBody).trans (congrArg Host.Outcome.next ?_)
  exact finish_ok (t := (rearmed (s.withResult none)).withResult (some .completed))
    (Block.bind_ok (rearmRx_undisturbed (s := s.withResult none) hs))

/-- A transfer just armed has nothing pending that a re-arm could leave behind (R25, R110). -/
theorem rearmed_of_active (hactive : s.rxState = .active) (hlanded : s.rxLanded = 0)
    (harmed : s.armedSinceReset = true) (hanswered : s.answeredFast = false) :
    rearmed s = { s with trace := s.trace ++ [.armRx] } := by
  rw [rearmed_eq]
  simp [hactive, hlanded, harmed, hanswered]

/-- A landing stays below the transfer it is in: no environment step leaves reception idle (R22, R99 to R102). -/
theorem envKeeps_not_idle : EnvKeeps fun s => s.rxState ≠ .idle where
  env s e hs := by
    rcases envStep_cases s e with h | ⟨_, ⟨_, _, _, h⟩ | ⟨_, _, _, h⟩ | ⟨_, _, h⟩ | ⟨_, _, h⟩ | ⟨_, _, h⟩ |
      ⟨_, _, _, h⟩ | ⟨_, _, _, h⟩ | ⟨_, _, _, h⟩⟩
    case inr.inl => rw [h]; dsimp only; split <;> simp
    case inr.inr.inr.inl => rw [h]; simp
    all_goals rw [h]; exact hs
  sched _ _ hs := hs

/-- A burst that neither faults nor ends the request, between two events (R13). -/
theorem between_burst {t : State} {burst : List EnvStep} {rest : List (List EnvStep)} (hs : s.sched = burst :: rest)
    (hrun : State.runEnv { s with sched := rest } burst = t) (hf : t.fault = none) (hb : t.busyOp = s.busyOp) :
    between s = .ok () t := by
  simp [between, hs, hrun, hf, hb]

/-! ## The bytes a transfer receives, and the frame they are (R46, R50, R99, R100) -/

/-- A write above a field of RXBUF leaves the field. -/
theorem rxField_write {off a : Nat} {b : Byte} (h : off + 1 < a) :
    State.rxField { s with rxbuf := s.rxbuf.write a b } off = s.rxField off := by
  simp only [State.rxField]
  rw [Memory.read_write_other _ _ (by omega), Memory.read_write_other _ _ (by omega)]

/-- During a transfer GET_REMAINING takes no draw (R96). -/
theorem tookRemaining_of_inTransfer (h : s.rxState.inTransfer = true) :
    s.tookRemaining = { s with trace := s.trace ++ [.remaining (s.params.frameSize - s.rxLanded)] } := by
  simp [State.tookRemaining, State.takesDraw, remaining_of_inTransfer h, h]

/-- The space with bytes written one after another from an offset on (R50). -/
def Memory.writeFrom : Memory → Nat → List Byte → Memory
  | m, _, [] => m
  | m, off, b :: bs => Memory.writeFrom (m.write off b) (off + 1) bs

/-- The bytes a transfer still waits for have landed, and its completion is raised (R99, R100). -/
def State.received (bs : List Byte) (s : State) : State := { s with
  rxbuf := s.rxbuf.writeFrom s.rxLanded bs
  rxLanded := s.params.frameSize
  rxState := .done
  doneFlag := true }

/-- The companion sends the bytes a transfer still waits for (R99, R100). -/
theorem runEnv_received {b : Byte} (bs : List Byte) (hf : s.fault = none) (hactive : s.rxState = .active)
    (hlast : s.rxLanded + (b :: bs).length = s.params.frameSize) :
    s.runEnv ((b :: bs).map .rxLand ++ [.rxComplete]) = s.received (b :: bs) := by
  induction bs generalizing s b with
  | nil =>
    have hfull : s.rxLanded + 1 = s.params.frameSize := hlast
    have hland := envStep_rxLand_of_active b hf hactive
    rw [if_pos hfull] at hland
    rw [List.map_cons, List.cons_append, State.runEnv, hland, List.map_nil, List.nil_append, State.runEnv,
      envStep_rxComplete (by exact hf) rfl]
    simp [State.runEnv, State.received, Memory.writeFrom, hfull]
  | cons c cs ih =>
    have hmore : s.rxLanded + 1 ≠ s.params.frameSize := by simp only [List.length_cons] at hlast; omega
    have hrest : s.rxLanded + 1 + (c :: cs).length = s.params.frameSize := by
      simp only [List.length_cons] at hlast ⊢; omega
    rw [List.map_cons, List.cons_append, State.runEnv, envStep_rxLand_of_active b hf hactive]
    exact ih hf (if_neg hmore) hrest

/-- A frame that fits is handed up (R86, R111). -/
theorem handUp_of_fits {rmode : RMode} {type : Half} {len : Nat} {rearm : Bool} (h : len ≤ s.params.payloadCap) :
    handUp rmode type len rearm s =
      ((s.setPhase (.dispatching type len rmode rearm)).emit (.dispatch type len rmode)).withResult
        (some .dispatched) := if_neg (Nat.not_lt.mpr h)

/-- What lands when the companion sends a string and raises the completion (R99, R100). -/
theorem landedBytes_map_rxLand (bs : List Byte) : landedBytes (bs.map .rxLand ++ [.rxComplete]) = bs := by
  induction bs with
  | nil => rfl
  | cons b bs ih => exact congrArg (b :: ·) ih

/-- Every byte a transfer from its start has received stands in RXBUF (R50, R106). -/
theorem received_read {bs : List Byte} (hf : s.fault = none) (hactive : s.rxState = .active) (hlanded : s.rxLanded = 0)
    (hsize : bs.length = s.params.frameSize) (hpos : 0 < bs.length) {off : Nat} (hoff : off < bs.length) :
    (s.received bs).rxbuf.read off = bs[off]? := by
  cases bs with
  | nil => cases hpos
  | cons b bs =>
    have hrun := runEnv_received (b := b) bs hf hactive (by omega)
    obtain ⟨_, hin, _⟩ := runEnv_lands _ s (by rw [hrun]; exact hf)
    rw [hrun, landedBytes_map_rxLand, hlanded] at hin
    simpa using hin off hoff

/-- A field of RXBUF both bytes of which are those of a string (R46). -/
theorem rxField_of_bytes {bs : List Byte} {off : Nat} (h : ∀ a, a < bs.length → s.rxbuf.read a = bs[a]?)
    (hoff : off + 1 < bs.length) : s.rxField off = some (fieldAt bs off) := by
  have hlo := h off (by omega)
  have hhi := h (off + 1) hoff
  rw [List.getElem?_eq_getElem (by omega)] at hlo hhi
  simp [State.rxField, hlo, hhi, fieldAt, List.getElem?_eq_getElem hoff,
    List.getElem?_eq_getElem (Nat.lt_of_succ_lt hoff)]

theorem setAnswered_self {b : Bool} (h : s.answeredFast = b) : s.setAnswered b = s := by
  subst h
  rfl

/-- Whichever case of R111 takes a well-formed frame once its completion is raised, it is handed up on `len2`. -/
theorem pollByCodec_wellFormed {fr : Frame} (rmode : RMode) (hd : s.doneFlag = true) (ha : s.answeredFast = false)
    (hwf : wellFormed s.params fr = true) : pollByCodec rmode fr.type fr.len1 fr.len2 fr.valid s =
      handUp rmode fr.type fr.len2.toNat true s.tookRemaining.chkClrDone := by
  have hsame : s.tookRemaining.chkClrDone.setAnswered false = s.tookRemaining.chkClrDone := setAnswered_self ha
  simp only [pollByCodec, if_pos hd, ha, resolveFull_of_wellFormed hwf, resolveCompleted_of_wellFormed hwf, hsame]
  split_ifs <;> rfl

end Sys2Proof.Machine

namespace Sys2Proof.Machine

open Sys2Proof.Claims

variable {s t : State} {type lr : Half} {rearm reply : Bool}

/-! ## DISPATCH_RETURN, undisturbed (R119) -/

/-- A DISPATCH_RETURN in a dispatch that breaks none of R149's and R150's conditions goes on to its events (R119). -/
theorem dispatchReturn_runs {len : Nat} {rmode : RMode} (hr : s.Ready)
    (hp : s.phase = .dispatching type len rmode rearm)
    (hplain : reply = false → lr = 0)
    (hreply : reply = true → s.txBusy = false ∧ lr.toNat ≤ s.params.payloadCap)
    (hrun : returnRun type rearm reply lr (s.withResult none) = .ok () t) :
    exec (.dispatchReturn reply lr) s = .next t := by
  refine (hostRequest_of_ready hr (dispatchReturnBody reply lr)).trans
    (congrArg Host.Outcome.next (finish_ok (Eq.trans ?_ hrun)))
  rw [dispatchReturnBody, Block.bind_ok (look_apply _ _), if_neg (fun h => h.2 (hplain h.1)), id,
    State.withResult_phase, hp]
  have hidle : ¬ (reply = true ∧ s.txBusy = true) := fun ⟨h, hbusy⟩ => by simp [hreply h] at hbusy
  have hfits : ¬ (reply = true ∧ s.params.payloadCap < lr.toNat) := fun ⟨h, hlong⟩ =>
    absurd (hreply h).2 (Nat.not_le.mpr hlong)
  exact (congrFun (if_neg hidle) _).trans (congrFun (if_neg hfits) _)

/-- Reception re-armed where the dispatch is marked so (R110, R119). -/
def rearmedIf (rearm : Bool) (s : State) : State := if rearm = true then rearmed s else s

/-- DISPATCH_RETURN after its re-arm: the reply framed and sent where there is one, and the end of the dispatch
(R119). -/
def returnEnd (type : Half) (reply : Bool) (lr : Half) : Block Unit :=
  if reply = true then do
    writeReplyFields type lr
    between
    sendFrame
    between
    event fun s => s.setPhase .idle
    complete .completed
  else do
    event fun s => s.setPhase .idle
    complete .completed

theorem returnRun_undisturbed (hs : s.sched = []) : returnRun type rearm reply lr s =
    returnEnd type reply lr (rearmedIf rearm (s.emit (.ret reply lr.toNat))) := by
  have hemit : (s.emit (.ret reply lr.toNat)).sched = [] := hs
  have harm : (s.emit (.ret reply lr.toNat)).armRx.sched = [] := hs
  rw [returnRun, Block.bind_ok (event_apply _ s), Block.bind_ok (between_undisturbed hemit)]
  cases rearm with
  | false => rfl
  | true =>
    rw [if_pos rfl, Block.bind_ok (rearmRx_undisturbed hemit),
      Block.bind_ok (between_undisturbed (s := (s.emit (.ret reply lr.toNat)).armRx.setAnswered false) harm)]
    rfl

@[simp] theorem rearmedIf_sched : (rearmedIf rearm s).sched = s.sched := by cases rearm <;> rfl
@[simp] theorem rearmedIf_params : (rearmedIf rearm s).params = s.params := by cases rearm <;> rfl
@[simp] theorem rearmedIf_stage : (rearmedIf rearm s).stage = s.stage := by cases rearm <;> rfl
@[simp] theorem rearmedIf_txbuf : (rearmedIf rearm s).txbuf = s.txbuf := by cases rearm <;> rfl

/-! ### The bytes of a reply (R90, R119) -/

/-- `Wr16` into a space: two bytes, lower offset first (R46). -/
def Memory.writeHalf (m : Memory) (off : Nat) (v : Half) : Memory :=
  (m.write off (loByte v)).write (off + 1) (hiByte v)

/-- The two bytes of a half stand in the space at an offset (R46). -/
def Memory.HoldsHalf (m : Memory) (off : Nat) (v : Half) : Prop :=
  m.read off = some (loByte v) ∧ m.read (off + 1) = some (hiByte v)

theorem Memory.read_writeHalf_other (m : Memory) {off a : Nat} (v : Half) (h : a < off ∨ off + 1 < a) :
    (m.writeHalf off v).read a = m.read a := by
  rw [Memory.writeHalf, Memory.read_write_other _ _ (by omega), Memory.read_write_other _ _ (by omega)]

theorem Memory.holdsHalf_writeHalf (m : Memory) (off : Nat) (v : Half) : (m.writeHalf off v).HoldsHalf off v :=
  ⟨(Memory.read_write_other _ _ (by omega)).trans (Memory.read_write_same _ _ _), Memory.read_write_same _ _ _⟩

/-- A field next to another one stays as it is. -/
theorem Memory.HoldsHalf.writeHalf {m : Memory} {off a : Nat} {v : Half} (h : m.HoldsHalf off v) (w : Half)
    (hother : off + 2 ≤ a ∨ a + 2 ≤ off) : (m.writeHalf a w).HoldsHalf off v := by
  obtain ⟨hlo, hhi⟩ := h
  exact ⟨(m.read_writeHalf_other w (by omega)).trans hlo, (m.read_writeHalf_other w (by omega)).trans hhi⟩

theorem stageField_of_holdsHalf {off : Nat} {v : Half} (h : s.stage.HoldsHalf off v) : s.stageField off = v := by
  obtain ⟨hlo, hhi⟩ := h
  simp [State.stageField, State.stageByte, hlo, hhi]

/-- STAGE with the four fields of a reply frame (R90, R119). -/
def replyStage (p : Params) (type lr : Half) (m : Memory) : Memory :=
  (((m.writeHalf typeOff type).writeHalf len1Off lr).writeHalf (len2Off p) lr).writeHalf (validOff p) Config.replyValid

/-- `t` has a reply framed in STAGE, copied to TXBUF, and differs from `s` in nothing else (R90, R126). -/
structure ReplyStaged (type lr : Half) (s t : State) : Prop where
  frame : t = { s with stage := t.stage, txbuf := t.txbuf }
  stage : t.stage = replyStage s.params type lr s.stage
  sent : ∀ off, off < s.params.frameSize → t.txByteAt off = t.stageByte off
  above : ∀ off, s.params.frameSize ≤ off → t.txbuf.read off = s.txbuf.read off

/-- A reply, undisturbed: framed in STAGE, copied to TXBUF, and its transmission armed (R119, R126). -/
theorem returnEnd_reply (hs : s.sched = []) : ∃ u, ReplyStaged type lr s u ∧
    returnEnd type true lr s = .ok () ((u.armTx.setPhase .idle).withResult (some .completed)) := by
  let v : State := { s with stage := replyStage s.params type lr s.stage }
  have hfields : writeReplyFields type lr s = .ok () v := writeReplyFields_undisturbed type lr hs
  obtain ⟨m, hsend, hin, hout⟩ := sendFrame_undisturbed v hs
  refine ⟨{ v with txbuf := m }, ⟨rfl, rfl, fun off hoff => ?_, hout⟩, ?_⟩
  · simp only [State.txByteAt, hin off hoff]
    rfl
  · have harm : (State.armTx { v with txbuf := m }).sched = [] := hs
    rw [returnEnd, if_pos rfl, Block.bind_ok hfields, Block.bind_ok (between_undisturbed (s := v) hs),
      Block.bind_ok hsend, Block.bind_ok (between_undisturbed harm)]
    rfl

section

variable {p : Params} {m : Memory} (hsize : 8 ≤ p.frameSize)
include hsize

theorem replyStage_type : (replyStage p type lr m).HoldsHalf typeOff type :=
  (((m.holdsHalf_writeHalf typeOff type).writeHalf lr (.inl (by decide))).writeHalf lr
    (.inl (by rw [typeOff, len2Off]; omega))).writeHalf _ (.inl (by rw [typeOff, validOff]; omega))

theorem replyStage_len1 : (replyStage p type lr m).HoldsHalf len1Off lr :=
  ((Memory.holdsHalf_writeHalf _ len1Off lr).writeHalf lr (.inl (by rw [len1Off, len2Off]; omega))).writeHalf _
    (.inl (by rw [len1Off, validOff]; omega))

theorem replyStage_len2 : (replyStage p type lr m).HoldsHalf (len2Off p) lr :=
  (Memory.holdsHalf_writeHalf _ (len2Off p) lr).writeHalf _ (.inl (by rw [len2Off, validOff]; omega))

/-- The payload region and what lies past the frame are not among a reply's fields (R61, R90). -/
theorem replyStage_other {off : Nat} (hpay : 4 ≤ off) (hother : off < p.frameSize - 4 ∨ p.frameSize ≤ off) :
    (replyStage p type lr m).read off = m.read off := by
  rw [replyStage, Memory.read_writeHalf_other _ _ (by rw [validOff]; omega),
    Memory.read_writeHalf_other _ _ (by rw [len2Off]; omega), Memory.read_writeHalf_other _ _ (by rw [len1Off]; omega),
    Memory.read_writeHalf_other _ _ (by rw [typeOff]; omega)]

end

theorem replyStage_valid {p : Params} {m : Memory} :
    (replyStage p type lr m).HoldsHalf (validOff p) Config.replyValid := Memory.holdsHalf_writeHalf _ _ _

end Sys2Proof.Machine

namespace Sys2Proof.Machine

open Sys2Proof.Claims

variable {P : State → Prop} {s t u : State}

/-! ## The point between two events of a request that does not wait (R13, R135, R141) -/

/-- Outside a wait the environment between two events can fault, but cannot end the request. -/
theorem leads_between (h : EnvKeeps P) (hbusy : ∀ s, P s → s.busyOp = .none) :
    Leads (fun s => P s ∧ s.fault = none) (fun s => P s ∧ s.fault = none) (fun s => P s ∧ s.fault ≠ none) between := by
  rintro s ⟨hs, hf⟩
  rcases between_cases s with ⟨_, hb⟩ | ⟨burst, rest, _, hb⟩
  · rw [hb]
    exact ⟨hs, hf⟩
  · have ht := runEnv_keeps h burst _ (h.sched s rest hs)
    rcases hb with ⟨hfault, hb⟩ | ⟨_, hne, _⟩ | ⟨hfault, _, hb⟩
    · rw [hb]
      exact ⟨ht, Option.isSome_iff_ne_none.mp hfault⟩
    · exact absurd ((hbusy _ ht).trans (hbusy s hs).symm) hne
    · rw [hb]
      exact ⟨ht, hfault⟩

/-- What a request leaves, from what holds at its end and what holds where it is stopped. -/
theorem finish_of_leads {Q R E : State → Prop} {x : Block Unit} (h : Leads P Q R x) (hend : ∀ t, Q t → E t)
    (hstop : ∀ t, R t → E t) (hs : P s) : E (finish x s) := by
  have := h s hs
  unfold finish
  cases hx : x s <;> rw [hx] at this
  · exact hend _ this
  · exact hstop _ this

/-! ## BEGIN_RECEIVE under every interleaving (R109) -/

/-- BEGIN_RECEIVE from `s` has armed reception and emitted ARM_RX; what the environment may move is left open. -/
structure State.Begun (s t : State) : Prop where
  txbuf : t.txbuf = s.txbuf
  stage : t.stage = s.stage
  phase : t.phase = s.phase
  hsState : t.hsState = s.hsState
  busyOp : t.busyOp = .none
  armed : t.armedSinceReset = true
  trace : t.trace = s.trace ++ [.armRx]
  notIdle : t.rxState ≠ .idle

theorem State.Begun.env (s : State) : EnvKeeps s.Begun where
  env u e hu := by
    obtain ⟨hbusy, hhs, htrace, _⟩ := envStep_outside_wait u e (by rw [hu.busyOp]; rfl)
    exact ⟨by simpa using hu.txbuf, by simpa using hu.stage, by simpa using hu.phase, hhs.trans hu.hsState,
      hbusy.trans hu.busyOp, by simpa using hu.armed, htrace.trans hu.trace, envKeeps_not_idle.env u e hu.notIdle⟩
  sched _ _ hu := { hu with }

/-- Whatever happens between its events BEGIN_RECEIVE arms reception, and unless it is stopped by a fault it ends with
the marker cleared. -/
theorem leads_beginReceiveBody (hr : s.Ready) : Leads (fun u => u = s.withResult none)
    (fun t => s.Begun t ∧ t.answeredFast = false ∧ t.result = some .completed)
    (fun t => s.Begun t ∧ t.fault ≠ none) beginReceiveBody := by
  obtain ⟨_, hf, hbusy⟩ := hr
  have harm : s.Begun (s.withResult none).armRx := ⟨rfl, rfl, rfl, rfl, hbusy, rfl, rfl, by simp⟩
  have rearm : Leads (fun u => u = s.withResult none) (fun t => s.Begun t ∧ t.answeredFast = false)
      (fun t => s.Begun t ∧ t.fault ≠ none) rearmRx :=
    leads_bind (leads_event fun u hu => by subst hu; exact ⟨harm, hf⟩) fun _ =>
      leads_bind (leads_between (State.Begun.env s) fun _ hu => hu.busyOp) fun _ =>
        leads_event fun u hu => ⟨{ hu.1 with }, rfl⟩
  exact leads_bind rearm fun _ => leads_event fun u hu => ⟨{ hu.1 with }, hu.2, rfl⟩

end Sys2Proof.Machine

namespace Sys2Proof.Machine

open Sys2Proof.Claims

variable {P R : State → Prop} {α β : Type} {s t u : State}

theorem Block.bind_ite {c : Prop} [Decidable c] (x y : Block α) (f : α → Block β) :
    (if c then x else y) >>= f = if c then x >>= f else y >>= f := by split <;> rfl

theorem raiseFault_bind (r : FaultRecord) (f : α → Block β) : (raiseFault r : Block α) >>= f = raiseFault r := rfl

/-! ## POLL, cut at its hand-off (R111, R120) -/

/-- The end of POLL without a hand-off, or the frame POLL hands up: its type and what was resolved (R111). -/
def pollHandOff (f : Resolved) : Block (Option (Half × Resolved)) := do
  let p ← look fun s => s.params
  between
  if overLength p f.len then
    event fun s => s.emit (.dropOverlen f.len)
    if p.overlenRearm && f.rearm then
      between
      rearmRx
      complete .noMsg
      return none
    else
      complete .noMsg
      return none
  else
    let t ← rd16 .rxbuf typeOff
    between
    return some (t, f)

/-- POLL up to its hand-off, where its Restriction Mode is not yet used (R111, R120). -/
def pollSearch : Block (Option (Half × Resolved)) := do
  let ph ← look fun s => s.phase
  let armed ← look fun s => s.armedSinceReset
  if ph ≠ .idle then raiseFault (.sequenceError .poll ph)
  else if armed = false then raiseFault (.notArmedSinceReset .poll)
  else
    let p ← look fun s => s.params
    let rem ← callGetRemaining
    between
    if p.frameSize < rem then raiseFault (.remainingOutOfRange rem)
    else
      match ← pollDetect (p.frameSize - rem) with
      | none =>
        complete .noMsg
        return none
      | some f => pollHandOff f

/-- POLL's hand-off: the dispatch with its Restriction Mode (R111, R120). -/
def pollHandUp (rmode : RMode) : Option (Half × Resolved) → Block Unit
  | none => pure ()
  | some (type, f) => do
    event fun s => s.setPhase (.dispatching type f.len rmode f.rearm)
    between
    event fun s => s.emit (.dispatch type f.len rmode)
    complete .dispatched

theorem pollDeliver_eq (rmode : RMode) (f : Resolved) : pollDeliver rmode f = pollHandOff f >>= pollHandUp rmode := by
  simp only [pollDeliver, pollHandOff, bind_assoc, Block.bind_ite, pure_bind, pollHandUp, bind_pure_unit]

theorem pollBody_eq (rmode : RMode) : pollBody rmode = pollSearch >>= pollHandUp rmode := by
  simp only [pollBody, pollRun, pollSearch, bind_assoc, Block.bind_ite, raiseFault_bind]
  congr!
  rename_i found
  cases found with
  | none => simp only [bind_assoc, pure_bind, pollHandUp, bind_pure_unit]
  | some f => exact pollDeliver_eq rmode f

/-! ## What POLL keeps until it hands a frame up, under every interleaving (R111, R146) -/

/-- From a state with `P`, the sequence ends in a value and a state with `Q`, or is stopped in a state with `R`. -/
def Yields (P : State → Prop) (x : Block α) (Q : α → State → Prop) (R : State → Prop) : Prop :=
  ∀ s, P s → match x s with
    | .ok a t => Q a t
    | .error _ t => R t

section

variable {M : α → State → Prop} {Q : β → State → Prop}

theorem yields_bind {x : Block α} {f : α → Block β} (hx : Yields P x M R) (hf : ∀ a, Yields (M a) (f a) Q R) :
    Yields P (x >>= f) Q R := by
  intro s hs
  have hxs := hx s hs
  rw [Block.bind_apply]
  cases h : x s with
  | ok a t => rw [h] at hxs; exact hf a t hxs
  | error e t => rw [h] at hxs; exact hxs

/-- What follows a sequence whose value does not matter. -/
theorem Leads.then {P' : State → Prop} {x : Block α} {f : α → Block β} (hx : Leads P P' R x)
    (hf : ∀ a, Yields P' (f a) Q R) : Yields P (x >>= f) Q R := yields_bind (M := fun _ => P') hx hf

/-- What follows a look at State may use that the value was read from a state with `P`. -/
theorem yields_look {g : State → α} {f : α → Block β} (hf : ∀ s, P s → Yields P (f (g s)) Q R) :
    Yields P (look g >>= f) Q R := fun s hs => hf s hs s hs

/-- A fact that does not speak of the state. -/
theorem yields_and {c : Prop} {x : Block β} (hx : c → Yields P x Q R) : Yields (fun s => P s ∧ c) x Q R :=
  fun s hs => hx hs.2 s hs.1

theorem yields_pure {b : β} (h : ∀ s, P s → Q b s) : Yields P (pure b : Block β) Q R := h

theorem yields_ite {c : Prop} [Decidable c] {x y : Block β} (hx : c → Yields P x Q R) (hy : ¬ c → Yields P y Q R) :
    Yields P (if c then x else y) Q R := by
  split
  · exact hx ‹_›
  · exact hy ‹_›

theorem yields_weaken {P' : State → Prop} {Q' : β → State → Prop} {x : Block β} (h : Yields P x Q R)
    (hp : ∀ s, P' s → P s) (hq : ∀ b s, Q b s → Q' b s) : Yields P' x Q' R := by
  intro s hs
  have hxs := h s (hp s hs)
  cases hx : x s <;> rw [hx] at hxs
  · exact hq _ _ hxs
  · exact hxs

end

/-- ARM_RX or HS_MATCH is among the events: a re-arm or an awaited reply (R112, R134). -/
def freesMark (new : List Event) : Prop := Event.armRx ∈ new ∨ ∃ ty l, Event.hsMatch ty l ∈ new

/-- From `s` to `t` no frame was dispatched, and where the frame was answered in `s` the marker has not been cleared
without a re-arm or an awaited reply (R112). -/
def State.KeepsMark (s t : State) : Prop :=
  ∃ new, t.trace = s.trace ++ new ∧ noDispatch new ∧ (s.answeredFast = true → t.answeredFast = false → freesMark new)

/-- From `s` to `t` no frame was dispatched, and there was a re-arm or an awaited reply: the marker may be cleared. -/
def State.Freed (s t : State) : Prop := ∃ new, t.trace = s.trace ++ new ∧ noDispatch new ∧ freesMark new

theorem noDispatch_append {new more : List Event} (h : noDispatch new) (hmore : noDispatch more) :
    noDispatch (new ++ more) := fun ty n m hmem => (List.mem_append.mp hmem).elim (h ty n m) (hmore ty n m)

theorem noDispatch_singleton {e : Event} (he : ∀ ty n m, e ≠ .dispatch ty n m) : noDispatch [e] :=
  fun ty n m hmem => he ty n m (List.mem_singleton.mp hmem).symm

theorem freesMark_append {new : List Event} (more : List Event) (h : freesMark new) : freesMark (new ++ more) := by
  obtain h | ⟨ty, l, h⟩ := h
  · exact .inl (List.mem_append_left _ h)
  · exact .inr ⟨ty, l, List.mem_append_left _ h⟩

theorem State.Freed.keepsMark (h : s.Freed t) : s.KeepsMark t :=
  let ⟨new, htrace, hquiet, hfrees⟩ := h
  ⟨new, htrace, hquiet, fun _ _ => hfrees⟩

theorem State.Freed.same (h : s.Freed t) (htrace : u.trace = t.trace) : s.Freed u :=
  let ⟨new, hnew, hquiet, hfrees⟩ := h
  ⟨new, htrace.trans hnew, hquiet, hfrees⟩

theorem State.Freed.emits {e : Event} (h : s.Freed t) (htrace : u.trace = t.trace ++ [e])
    (he : ∀ ty n m, e ≠ .dispatch ty n m) : s.Freed u := by
  obtain ⟨new, hnew, hquiet, hfrees⟩ := h
  exact ⟨new ++ [e], by rw [htrace, hnew, List.append_assoc], noDispatch_append hquiet (noDispatch_singleton he),
    freesMark_append _ hfrees⟩

namespace State.KeepsMark

theorem refl (s : State) : s.KeepsMark s :=
  ⟨[], by simp, by simp [noDispatch], fun h h' => absurd (h.symm.trans h') (by decide)⟩

theorem same (h : s.KeepsMark t) (htrace : u.trace = t.trace) (hmark : u.answeredFast = t.answeredFast) :
    s.KeepsMark u :=
  let ⟨new, hnew, hquiet, hfrees⟩ := h
  ⟨new, htrace.trans hnew, hquiet, fun hs hu => hfrees hs (hmark.symm.trans hu)⟩

theorem emits {e : Event} (h : s.KeepsMark t) (htrace : u.trace = t.trace ++ [e])
    (he : ∀ ty n m, e ≠ .dispatch ty n m) (hmark : u.answeredFast = t.answeredFast) : s.KeepsMark u := by
  obtain ⟨new, hnew, hquiet, hfrees⟩ := h
  exact ⟨new ++ [e], by rw [htrace, hnew, List.append_assoc], noDispatch_append hquiet (noDispatch_singleton he),
    fun hs hu => freesMark_append _ (hfrees hs (hmark.symm.trans hu))⟩

/-- An event that emits ARM_RX or HS_MATCH. -/
theorem frees {e : Event} (h : s.KeepsMark t) (htrace : u.trace = t.trace ++ [e])
    (he : e = .armRx ∨ ∃ ty l, e = .hsMatch ty l) : s.Freed u := by
  obtain ⟨new, hnew, hquiet, _⟩ := h
  refine ⟨new ++ [e], by rw [htrace, hnew, List.append_assoc], noDispatch_append hquiet (noDispatch_singleton ?_), ?_⟩
  · rintro ty n m rfl
    simp at he
  · obtain rfl | ⟨ty, l, rfl⟩ := he
    · exact .inl (by simp)
    · exact .inr ⟨ty, l, by simp⟩

theorem unanswered (h : s.KeepsMark t) (ha : s.answeredFast = false) (htrace : u.trace = t.trace) : s.KeepsMark u :=
  let ⟨new, hnew, hquiet, _⟩ := h
  ⟨new, htrace.trans hnew, hquiet, fun hs => absurd (hs.symm.trans ha) (by decide)⟩

theorem marked (h : s.KeepsMark t) (htrace : u.trace = t.trace) (hu : u.answeredFast = true) : s.KeepsMark u :=
  let ⟨new, hnew, hquiet, _⟩ := h
  ⟨new, htrace.trans hnew, hquiet, fun _ h => absurd (hu.symm.trans h) (by decide)⟩

end State.KeepsMark

/-- TIMEOUT is the only environment step that emits (R33, R135). -/
theorem envStep_trace (s : State) (e : EnvStep) :
    (s.envStep e).trace = s.trace ∨ (s.envStep e).trace = s.trace ++ [.hsTimeout] := by
  rcases envStep_cases s e with h | ⟨_, ⟨_, _, _, h⟩ | ⟨_, _, _, h⟩ | ⟨_, _, h⟩ | ⟨_, _, h⟩ | ⟨_, _, h⟩ |
    ⟨_, _, _, h⟩ | ⟨_, _, _, h⟩ | ⟨_, _, _, h⟩⟩ <;> rw [h]
  case inr.inr.inr.inr.inr.inr.inr.inr => exact .inr rfl
  all_goals exact .inl rfl

theorem State.KeepsMark.env (s : State) : EnvKeeps s.KeepsMark where
  env t e ht := (envStep_trace t e).elim (fun h => ht.same h (envStep_answeredFast t e))
    fun h => ht.emits h (by simp) (envStep_answeredFast t e)
  sched _ _ ht := ht.same rfl rfl

theorem State.Freed.env (s : State) : EnvKeeps s.Freed where
  env t e ht := (envStep_trace t e).elim ht.same fun h => ht.emits h (by simp)
  sched _ _ ht := ht.same rfl

/-- What a POLL from `s` keeps until it hands a frame up: it dispatches nothing and leaves an answered frame's marker
unless it re-arms, holds nothing, writes neither TXBUF, STAGE nor `hs_state`, and never raises
REMAINING_OUT_OF_RANGE. -/
structure State.Polling (s t : State) : Prop where
  params : t.params = s.params
  txbuf : t.txbuf = s.txbuf
  stage : t.stage = s.stage
  phase : t.phase = s.phase
  hsState : t.hsState = s.hsState
  busyOp : t.busyOp = .none
  inRange : ∀ rem, t.fault ≠ some (.remainingOutOfRange rem)
  mark : s.KeepsMark t

/-- POLL goes on. -/
structure State.Running (s t : State) : Prop extends State.Polling s t where
  noFault : t.fault = none

/-- POLL was stopped by a fault (R141). -/
structure State.Stopped (s t : State) : Prop extends State.Polling s t where
  faulted : t.fault ≠ none

/-- POLL goes on and has not touched the marker yet (R27, R112). -/
structure State.Unmarked (s t : State) : Prop extends State.Running s t where
  unmarked : t.answeredFast = s.answeredFast

/-- A piece of POLL before the hand-off, under every interleaving. -/
abbrev Polls (s : State) (x : Block α) : Prop := Leads s.Running s.Running s.Stopped x

/-- RX_OVERRUN is the only fault the environment raises (R99, R147). -/
theorem envStep_fault (s : State) (e : EnvStep) :
    (s.envStep e).fault = s.fault ∨ ∃ b st, (s.envStep e).fault = some (.rxOverrun b st) := by
  rcases envStep_cases s e with h | ⟨_, ⟨_, _, _, h⟩ | ⟨b, _, _, h⟩ | ⟨_, _, h⟩ | ⟨_, _, h⟩ | ⟨_, _, h⟩ |
    ⟨_, _, _, h⟩ | ⟨_, _, _, h⟩ | ⟨_, _, _, h⟩⟩ <;> rw [h]
  case inr.inr.inl => exact .inr ⟨b, _, rfl⟩
  all_goals exact .inl rfl

theorem State.Polling.env (s : State) : EnvKeeps s.Polling where
  env t e ht := by
    obtain ⟨hbusy, hhs, _⟩ := envStep_outside_wait t e (by rw [ht.busyOp]; rfl)
    refine ⟨by simpa using ht.params, by simpa using ht.txbuf, by simpa using ht.stage, by simpa using ht.phase,
      hhs.trans ht.hsState, hbusy.trans ht.busyOp, fun rem hfault => ?_, (State.KeepsMark.env s).env t e ht.mark⟩
    rcases envStep_fault t e with h | ⟨b, st, h⟩
    · exact ht.inRange rem (h ▸ hfault)
    · rw [h] at hfault
      cases hfault
  sched _ _ ht := { ht with mark := ht.mark.same rfl rfl }

namespace Polls

/-- POLL goes on, and with it whatever survives the environment. -/
theorem gap_and (hP : EnvKeeps P) :
    Leads (fun t => s.Running t ∧ P t) (fun t => s.Running t ∧ P t) s.Stopped between := by
  rintro t ⟨hrunning, ht⟩
  have hends := leads_between ((State.Polling.env s).and hP) (fun _ ht => ht.1.busyOp) t
    ⟨⟨hrunning.toPolling, ht⟩, hrunning.noFault⟩
  cases hb : between t <;> rw [hb] at hends <;> obtain ⟨⟨hpolling, ht⟩, hf⟩ := hends
  · exact ⟨⟨hpolling, hf⟩, ht⟩
  · exact ⟨hpolling, hf⟩

theorem gap : Polls s between :=
  leads_weaken (gap_and (P := fun _ => True) ⟨fun _ _ h => h, fun _ _ h => h⟩) (fun _ ht => ⟨ht, trivial⟩)
    fun _ ht => ht.1

/-- No environment step touches the marker (R27). -/
theorem gap_unmarked : Leads s.Unmarked s.Unmarked s.Stopped between :=
  have hmark : EnvKeeps fun t => t.answeredFast = s.answeredFast :=
    ⟨fun t e ht => (envStep_answeredFast t e).trans ht, fun _ _ ht => ht⟩
  leads_weaken (gap_and hmark) (fun _ ht => ⟨ht.toRunning, ht.unmarked⟩) fun _ ⟨ht, hsame⟩ => ⟨ht, hsame⟩

theorem pure (a : α) : Polls s (pure a : Block α) := fun _ ht => ht

theorem look {g : State → α} {f : α → Block β} (hf : ∀ a, Polls s (f a)) : Polls s (look g >>= f) :=
  fun t ht => hf (g t) t ht

theorem bufRead (b : Buffer) (off : Nat) : Polls s (bufRead b off) := by
  intro t ht
  cases hv : t.readByte b off with
  | some v =>
    rw [bufRead_ok hv]
    exact ht
  | none =>
    rw [bufRead_fault hv]
    exact { ht.toPolling with inRange := by simp, mark := ht.mark.same rfl rfl, faulted := by simp }

theorem rd16 (b : Buffer) (off : Nat) : Polls s (rd16 b off) :=
  leads_bind (bufRead b off) fun _ => leads_bind gap fun _ => leads_bind (bufRead b (off + 1)) fun _ => pure _

/-- An event that emits, and no DISPATCH. -/
theorem emit {e : Event} (he : ∀ ty n m, e ≠ .dispatch ty n m) : Polls s (event fun t => t.emit e) :=
  leads_event fun _ ht => { ht with mark := ht.mark.emits rfl he rfl }

/-- The marker is set, or cleared for a frame that was not answered. -/
theorem setAnswered {b : Bool} (h : b = true ∨ s.answeredFast = false) :
    Polls s (event fun t => t.setAnswered b) := leads_event fun _ ht =>
  { ht with mark := h.elim (fun hb => ht.mark.marked rfl hb) fun ha => ht.mark.unanswered ha rfl }

/-- After a re-arm the marker may be cleared (R110). -/
theorem clear : Leads (fun t => s.Running t ∧ s.Freed t) (fun t => s.Running t ∧ s.Freed t) s.Stopped
    (event fun t => t.setAnswered false) := leads_event fun t ⟨ht, hfreed⟩ =>
  have hcleared : s.Freed (t.setAnswered false) := hfreed.same rfl
  ⟨{ ht with mark := hcleared.keepsMark }, hcleared⟩

theorem rearm : Leads s.Running (fun t => s.Running t ∧ s.Freed t) s.Stopped rearmRx :=
  have arm (t : State) (ht : s.Running t) : s.Running t.armRx ∧ s.Freed t.armRx :=
    have hfreed : s.Freed t.armRx := ht.mark.frees rfl (.inl rfl)
    ⟨{ ht with mark := hfreed.keepsMark }, hfreed⟩
  leads_bind (leads_event arm) fun _ => leads_bind (gap_and (State.Freed.env s)) fun _ => clear

theorem readResolution : Polls s readResolution :=
  look fun _ => leads_bind (rd16 _ _) fun _ => leads_ite (fun _ => pure _) fun _ =>
    leads_bind gap fun _ => leads_bind (rd16 _ _) fun _ => leads_ite
      (fun _ => leads_bind gap fun _ => leads_bind (rd16 _ _) fun _ => pure _) fun _ => pure _

theorem pollLanded : Polls s pollLanded := by
  refine leads_bind readResolution fun r => ?_
  cases r with
  | len l => exact pure _
  | invalid =>
    exact leads_bind gap fun _ => leads_bind (emit (by simp)) fun _ => leads_bind gap fun _ =>
      leads_bind rearm fun _ => leads_weaken (pure _) (fun _ ht => ht.1) fun _ ht => ht

theorem pollFast (arrived : Nat) : Polls s (pollFast arrived) :=
  leads_bind (rd16 _ _) fun _ => leads_ite
    (fun _ => leads_bind gap fun _ => leads_bind (setAnswered (.inl rfl)) fun _ => pure _) fun _ => pure _

/-! ### What the detector finds -/

/-- What the detector found may be handed up: only a frame that was not answered (R112). -/
def Found (s : State) (found : Option Resolved) (t : State) : Prop :=
  s.Running t ∧ (found ≠ none → s.answeredFast = false)

theorem pollDropCompleted : Yields s.Running pollDropCompleted (Found s) s.Stopped :=
  (emit (by simp)).then fun _ => gap.then fun _ => rearm.then fun _ =>
    (gap_and (State.Freed.env s)).then fun _ => clear.then fun _ =>
      yields_pure fun _ ht => ⟨ht.1, fun h => absurd rfl h⟩

/-- Nothing is asked of what is found where the frame was not answered. -/
theorem found {x : Block (Option Resolved)} (ha : s.answeredFast = false) (hx : Polls s x) :
    Yields s.Running x (Found s) s.Stopped :=
  yields_weaken (Q := fun _ => s.Running) hx (fun _ ht => ht) fun _ _ ht => ⟨ht, fun _ => ha⟩

theorem pollCompleted : Yields s.Unmarked pollCompleted (Found s) s.Stopped := by
  refine yields_look fun _ _ => yields_look fun t ht => yields_weaken (P := s.Running) ?_ (fun _ ht => ht.toRunning)
    fun _ _ ht => ht
  refine yields_ite (fun _ => pollDropCompleted) fun hanswered => ?_
  have ha : s.answeredFast = false := by simpa [ht.unmarked] using hanswered
  exact (rd16 _ _).then fun _ => gap.then fun _ => yields_ite
    (fun _ => found ha (leads_bind (rd16 _ _) fun _ => leads_bind gap fun _ =>
      leads_bind (setAnswered (.inr ha)) fun _ => pure _))
    fun _ => pollDropCompleted

theorem callChkClrDone : Leads s.Unmarked s.Unmarked s.Stopped callChkClrDone := fun _ ht =>
  { ht with mark := ht.mark.emits rfl (by simp) rfl }

theorem pollDetect (arrived : Nat) : Yields s.Unmarked (pollDetect arrived) (Found s) s.Stopped := by
  refine yields_look fun t ht => callChkClrDone.then fun flag => yields_ite (fun hheader => ?_) fun _ => ?_
  · have ha : s.answeredFast = false := by
      simp only [ht.unmarked, Bool.and_eq_true, Bool.not_eq_true'] at hheader
      exact hheader.2
    exact yields_weaken (found ha (leads_bind gap fun _ => leads_ite (fun _ => pollLanded) fun _ => pollFast arrived))
      (fun _ ht => ht.toRunning) fun _ _ ht => ht
  · exact yields_ite (fun _ => gap_unmarked.then fun _ => pollCompleted) fun _ =>
      yields_pure fun _ ht => ⟨ht.toRunning, fun h => absurd rfl h⟩

/-! ### The search as a whole -/

/-- POLL up to its hand-off has ended: with NO_MSG, or with a frame that was not answered. -/
def Searched (s : State) (found : Option (Half × Resolved)) (t : State) : Prop :=
  s.Running t ∧ (found = none → t.result = some .noMsg) ∧ (found ≠ none → s.answeredFast = false ∧ s.phase = .idle)

theorem noMsg : Yields s.Running (do complete .noMsg; return none) (Searched s) s.Stopped := fun _ ht =>
  ⟨{ ht with mark := ht.mark.same rfl rfl }, fun _ => rfl, fun h => absurd rfl h⟩

theorem pollHandOff (f : Resolved) (ha : s.answeredFast = false) (hp : s.phase = .idle) :
    Yields s.Running (pollHandOff f) (Searched s) s.Stopped :=
  have rearmed : Yields (fun t => s.Running t ∧ s.Freed t) (do complete .noMsg; return none) (Searched s) s.Stopped :=
    yields_weaken noMsg (fun _ ht => ht.1) fun _ _ ht => ht
  yields_look fun _ _ => gap.then fun _ => yields_ite
    (fun _ => (emit (by simp)).then fun _ => yields_ite
      (fun _ => gap.then fun _ => rearm.then fun _ => rearmed) fun _ => noMsg)
    fun _ => (rd16 _ _).then fun _ => gap.then fun _ =>
      yields_pure fun _ ht => ⟨ht, fun h => (nomatch h), fun _ => ⟨ha, hp⟩⟩

/-- A fault POLL raises itself, other than REMAINING_OUT_OF_RANGE. -/
theorem raise {r : FaultRecord} {Q : α → State → Prop} (hr : ∀ rem, r ≠ .remainingOutOfRange rem) :
    Yields s.Unmarked (raiseFault r) Q s.Stopped := fun _ ht =>
  { ht.toPolling with
    inRange := fun rem h => hr rem (Option.some.inj h)
    mark := ht.mark.same rfl rfl
    faulted := by simp }

/-- The driver never reports more than `F` bytes (R96, R146). -/
theorem callGetRemaining : Yields s.Unmarked callGetRemaining
    (fun rem t => s.Unmarked t ∧ rem ≤ s.params.frameSize) s.Stopped := fun t ht =>
  ⟨{ ht with mark := ht.mark.emits rfl (by simp) rfl }, ht.params ▸ remaining_le t⟩

theorem pollSearch : Yields s.Unmarked pollSearch (Searched s) s.Stopped := by
  refine yields_look fun t ht => yields_look fun _ _ => yields_ite (fun _ => raise (by simp)) fun hidle =>
    yields_ite (fun _ => raise (by simp)) fun _ => ?_
  have hp : s.phase = .idle := ht.phase.symm.trans (not_not.mp hidle)
  refine yields_look fun u hu => yields_bind callGetRemaining fun rem => yields_and fun hle =>
    gap_unmarked.then fun _ =>
    yields_ite (fun hrange => ?_) fun _ => yields_bind (pollDetect _) fun found => yields_and fun hfree => ?_
  · exact absurd hle (Nat.not_le.mpr (hu.params ▸ hrange))
  · cases found with
    | none => exact noMsg
    | some f => exact pollHandOff f (hfree (by simp)) hp

end Polls

/-- A request starts with no result and nothing else changed (log 13). -/
theorem State.Ready.unmarked (hr : s.Ready) : s.Unmarked (s.withResult none) := by
  obtain ⟨_, hf, hbusy⟩ := hr
  exact {
    params := rfl
    txbuf := rfl
    stage := rfl
    phase := rfl
    hsState := rfl
    busyOp := hbusy
    inRange := fun rem h => by simp [hf] at h
    mark := (State.KeepsMark.refl s).same rfl rfl
    noFault := hf
    unmarked := rfl }

/-- Everything a POLL can do, under every interleaving: it ends, or is stopped, without a hand-off; or it hands up a
frame that was not answered, and only there its Restriction Mode is used (R111, R112, R120, R146). -/
theorem poll_cases (hr : s.Ready) :
    (∃ t, s.Polling t ∧ (t.fault = none → t.result = some .noMsg) ∧ ∀ rmode, exec (.poll rmode) s = .next t) ∨
    ∃ u type f, s.Running u ∧ s.answeredFast = false ∧ s.phase = .idle ∧
      ∀ rmode, exec (.poll rmode) s = .next (finish (pollHandUp rmode (some (type, f))) u) := by
  have hends := Polls.pollSearch _ hr.unmarked
  have hexec (rmode : RMode) : exec (.poll rmode) s =
      .next (finish (pollSearch >>= pollHandUp rmode) (s.withResult none)) :=
    pollBody_eq rmode ▸ hostRequest_of_ready hr (pollBody rmode)
  cases hsearch : pollSearch (s.withResult none) with
  | error e t =>
    rw [hsearch] at hends
    refine .inl ⟨t, hends.toPolling, fun h => absurd h hends.faulted, fun rmode => (hexec rmode).trans ?_⟩
    exact congrArg Host.Outcome.next (finish_error (Block.bind_error hsearch))
  | ok found t =>
    rw [hsearch] at hends
    obtain ⟨hrunning, hnone, hsome⟩ := hends
    cases found with
    | none =>
      refine .inl ⟨t, hrunning.toPolling, fun _ => hnone rfl, fun rmode => (hexec rmode).trans ?_⟩
      exact congrArg Host.Outcome.next (finish_ok (Block.bind_ok hsearch))
    | some frame =>
      obtain ⟨type, f⟩ := frame
      obtain ⟨hfree, hp⟩ := hsome (by simp)
      refine .inr ⟨t, type, f, hrunning, hfree, hp, fun rmode => (hexec rmode).trans ?_⟩
      simp only [finish, Block.bind_ok hsearch]

/-- POLL's hand-off, under every interleaving and for every Restriction Mode: a fault stops it between its two events,
or the dispatch is emitted. -/
theorem pollHandUp_cases {type : Half} {f : Resolved} (rmode : RMode) (hu : s.Running u) :
    ∃ v, (u.setPhase (.dispatching type f.len rmode f.rearm)).Polling v ∧
      ((v.fault ≠ none ∧ ∀ m, finish (pollHandUp m (some (type, f))) u = v.withDispatchMode m) ∨
        (v.fault = none ∧ ∀ m, finish (pollHandUp m (some (type, f))) u =
          ((v.withDispatchMode m).emit (.dispatch type f.len m)).withResult (some .dispatched))) := by
  generalize hw : u.setPhase (.dispatching type f.len rmode f.rearm) = w
  have hstart : w.Running w := by
    subst hw
    exact ⟨⟨rfl, rfl, rfl, rfl, rfl, hu.busyOp, hu.inRange, .refl _⟩, hu.noFault⟩
  have hmode (m : RMode) : u.setPhase (.dispatching type f.len m f.rearm) = w.withDispatchMode m := by
    subst hw
    rfl
  have hends := Polls.gap w hstart
  have hblind (m : RMode) := modeBlind_between (m := m) w
  have hrun (m : RMode) : finish (pollHandUp m (some (type, f))) u = match between (w.withDispatchMode m) with
      | .ok _ v => (v.emit (.dispatch type f.len m)).withResult (some .dispatched)
      | .error _ v => v := by
    rw [← hmode, finish, pollHandUp, Block.bind_ok (event_apply _ u), Block.bind_apply]
    cases between (u.setPhase (.dispatching type f.len m f.rearm)) <;> rfl
  cases hb : between w with
  | ok _ v =>
    rw [hb] at hends
    refine ⟨v, hends.toPolling, .inr ⟨hends.noFault, fun m => (hrun m).trans ?_⟩⟩
    rw [hblind, hb]
  | error e v =>
    rw [hb] at hends
    refine ⟨v, hends.toPolling, .inl ⟨hends.faulted, fun m => (hrun m).trans ?_⟩⟩
    rw [hblind, hb]

end Sys2Proof.Machine

/-! ## Every step that is no POLL does not look at the Restriction Mode (R120) -/

namespace Sys2Proof.Machine

variable {m : RMode} {s : State}

/-- A driver call does not look at the Restriction Mode where its event does not. -/
theorem driverEvent_withDispatchMode {f : State → State}
    (hf : ∀ t, f (t.withDispatchMode m) = (f t).withDispatchMode m) (s : State) :
    driverEvent f (s.withDispatchMode m) = mapNext (State.withDispatchMode m) (driverEvent f s) := by
  rw [driverEvent, hf]
  exact mapNext_guarded s (.next (f s))

theorem exec_withDispatchMode {i : Instr} (hi : ∀ rmode, i ≠ .poll rmode) (s : State) :
    exec i (s.withDispatchMode m) = mapNext (State.withDispatchMode m) (exec i s) := by
  cases i with
  | beginReceive => exact hostRequest_withDispatchMode modeBlind_beginReceiveBody s
  | poll rmode => exact absurd rfl (hi rmode)
  | send => exact hostRequest_withDispatchMode modeBlind_sendBody s
  | armAndClearPending => exact hostRequest_withDispatchMode modeBlind_armAndClearPendingBody s
  | waitRxAndClear expected => exact hostRequest_withDispatchMode (modeBlind_waitRxAndClearBody expected) s
  | dmaCancel =>
    have hbody : ModeBlind m (do event State.cancelRx; complete .completed) :=
      modeBlind_bind (modeBlind_event fun _ => rfl) fun _ => modeBlind_complete _
    exact hostRequest_withDispatchMode hbody s
  | dispatchReturn reply lr => exact hostRequest_withDispatchMode (modeBlind_dispatchReturnBody reply lr) s
  | armRx => rw [exec_armRx, exec_armRx, driverEvent_withDispatchMode]; exact fun _ => rfl
  | armTx => rw [exec_armTx, exec_armTx, driverEvent_withDispatchMode]; exact fun _ => rfl
  | getRemaining => rw [exec_getRemaining, exec_getRemaining, driverEvent_withDispatchMode]; exact fun _ => rfl
  | chkClrDone => rw [exec_chkClrDone, exec_chkClrDone, driverEvent_withDispatchMode]; exact fun _ => rfl
  | cancel => rw [exec_cancel, exec_cancel, driverEvent_withDispatchMode]; exact fun _ => rfl

/-- A driver call laid out alone is no POLL (R74). -/
theorem step_call_withDispatchMode {code : Byte} (hcall : s.driverCall = some code) :
    step (s.withDispatchMode m) = mapNext (State.withDispatchMode m) (step s) := by
  rw [step_call hcall, step_call (s := s.withDispatchMode m) hcall]
  cases hdec : decode (.primitive code) with
  | ok i =>
    refine exec_withDispatchMode (fun rmode h => ?_) { s with driverCall := none }
    subst h
    exact Bool.false_ne_true (isPrimitive_of_decode_primitive hdec)
  | error e => exact mapNext_guarded { s with driverCall := none } (.refused _)

theorem step_withDispatchMode (hpoll : ¬ Claims.pollIsNext s) :
    step (s.withDispatchMode m) = mapNext (State.withDispatchMode m) (step s) := by
  cases hcall : s.driverCall with
  | some code => exact step_call_withDispatchMode hcall
  | none =>
    have hcall' : (s.withDispatchMode m).driverCall = none := hcall
    cases hin : s.inputs with
    | nil =>
      rw [step_stutter hcall hin, step_stutter hcall' hin]
      exact mapNext_guarded s (.next s)
    | cons input rest =>
      cases input with
      | request word during =>
        rw [step_request hcall hin, step_request hcall' hin]
        cases hdec : decode (.request word) with
        | ok i =>
          refine exec_withDispatchMode (fun rmode h => hpoll ?_) { s with inputs := rest, sched := during }
          exact ⟨word, during, rest, rmode, hin, h ▸ hdec⟩
        | error e => exact hostRequest_withDispatchMode (modeBlind_raise _) { s with inputs := rest, sched := during }
      | resume during =>
        rw [step_resume hcall hin, step_resume hcall' hin]
        exact resumeHeld_withDispatchMode { s with inputs := rest, sched := during }
      | hostRead space off =>
        rw [step_hostRead hcall hin, step_hostRead hcall' hin]
        exact hostRead_withDispatchMode space off { s with inputs := rest }
      | hostWrite space off b =>
        rw [step_hostWrite hcall hin, step_hostWrite hcall' hin]
        exact hostWrite_withDispatchMode space off b { s with inputs := rest }
      | env e =>
        rw [step_env hcall hin, step_env hcall' hin]
        refine Eq.trans (congrArg (fun t => guarded _ (.next t)) ?_)
          (mapNext_guarded { s with inputs := rest } (.next _))
        exact withDispatchMode_envStep m { s with inputs := rest } e

/-- Events without a DISPATCH name no Restriction Mode. -/
theorem map_withMode_of_noDispatch {new : List Event} (h : Claims.noDispatch new) :
    new.map (Claims.withMode m) = new := by
  refine (List.map_congr_left fun e he => ?_).trans (List.map_id new)
  cases e with
  | dispatch ty l r => exact absurd he (h ty l r)
  | _ => rfl

end Sys2Proof.Machine

/-! ## Every request leaves the marker of an answered frame, unless it re-arms or takes an awaited reply (R112) -/

namespace Sys2Proof.Machine

variable {α : Type} {s t u : State}

namespace State.KeepsMark

theorem gap : Keeps s.KeepsMark between := keeps_between (State.KeepsMark.env s)

/-- An event that neither emits nor writes the marker. -/
theorem event {f : State → State}
    (hf : ∀ t : State, (f t).trace = t.trace ∧ (f t).answeredFast = t.answeredFast := by exact fun _ => ⟨rfl, rfl⟩) :
    Keeps s.KeepsMark (event f) := keeps_event fun t ht => ht.same (hf t).1 (hf t).2

/-- An event that emits, no DISPATCH, and does not write the marker. -/
theorem emitting {f : State → State} (e : Event) (he : ∀ ty n m, e ≠ .dispatch ty n m)
    (hf : ∀ t : State, (f t).trace = t.trace ++ [e] ∧ (f t).answeredFast = t.answeredFast) :
    Keeps s.KeepsMark (Machine.event f) := keeps_event fun t ht => ht.emits (hf t).1 he (hf t).2

theorem raise (r : FaultRecord) : Keeps s.KeepsMark (raiseFault r : Block α) := keeps_raise fun _ ht => ht.same rfl rfl

theorem complete (r : Result) : Keeps s.KeepsMark (complete r) := event

theorem rd16 (b : Buffer) (off : Nat) : Keeps s.KeepsMark (rd16 b off) :=
  keeps_rd16 (State.KeepsMark.env s) fun _ _ ht => ht.same rfl rfl

theorem callChkClrDone : Keeps s.KeepsMark callChkClrDone :=
  keeps_callChkClrDone fun _ ht => ht.emits rfl (by simp) rfl

/-- Where the marker may be cleared it may still be after the environment's steps. -/
theorem freed_gap : Leads s.Freed s.Freed s.KeepsMark between :=
  (keeps_between (State.Freed.env s)).leads fun _ ht => ht.keepsMark

/-- An event that emits nothing, where the marker may be cleared. -/
theorem freed_event {f : State → State} (hf : ∀ t : State, (f t).trace = t.trace := by exact fun _ => rfl) :
    Leads s.Freed s.Freed s.KeepsMark (Machine.event f) := leads_event fun t ht => ht.same (hf t)

theorem keeps_of_freed {x : Block α} (h : Leads s.KeepsMark s.Freed s.KeepsMark x) : Keeps s.KeepsMark x :=
  Leads.keeps (leads_weaken h (fun _ ht => ht) fun _ ht => ht.keepsMark)

theorem rearm : Keeps s.KeepsMark rearmRx :=
  keeps_of_freed (leads_bind (leads_event fun _ ht => ht.frees rfl (.inl rfl)) fun _ =>
    leads_bind freed_gap fun _ => freed_event)

theorem readResolution : Keeps s.KeepsMark readResolution :=
  keeps_bind (keeps_look _ _) fun _ => keeps_bind (rd16 _ _) fun _ => keeps_ite (keeps_pure _ _)
    (keeps_bind gap fun _ => keeps_bind (rd16 _ _) fun _ => keeps_ite
      (keeps_bind gap fun _ => keeps_bind (rd16 _ _) fun _ => keeps_pure _ _) (keeps_pure _ _))

/-! ### Transmission (R119, R125, R126) -/

theorem sendFrame : Keeps s.KeepsMark sendFrame :=
  keeps_sendFrame (State.KeepsMark.env s) (fun _ _ _ ht _ => ht.same rfl rfl) fun _ ht => ht.emits rfl (by simp) rfl

theorem sendBody : Keeps s.KeepsMark sendBody :=
  have accepted : Keeps s.KeepsMark sendAccepted :=
    keeps_bind sendFrame fun _ => keeps_bind (keeps_look _ _) fun _ => keeps_ite
      (keeps_bind gap fun _ => keeps_bind event fun _ => complete _) (complete _)
  keeps_bind (keeps_look _ _) fun _ => keeps_ite (raise _)
    (keeps_bind (rd16 _ _) fun _ => keeps_bind gap fun _ => keeps_bind (rd16 _ _) fun _ =>
      keeps_bind gap fun _ => keeps_bind (rd16 _ _) fun _ => keeps_bind gap fun _ =>
        keeps_ite accepted (raise _))

theorem writeReplyFields (type lr : Half) : Keeps s.KeepsMark (writeReplyFields type lr) :=
  have field (off : Nat) (v : Half) : Keeps s.KeepsMark (wr16 .stage off v) :=
    keeps_wr16 (State.KeepsMark.env s) (fun _ _ ht => ht.same rfl rfl) fun _ _ ht => ht.same rfl rfl
  keeps_bind (keeps_look _ _) fun _ => keeps_bind (field _ _) fun _ => keeps_bind gap fun _ =>
    keeps_bind (field _ _) fun _ => keeps_bind gap fun _ => keeps_bind (field _ _) fun _ =>
      keeps_bind gap fun _ => field _ _

theorem returnRun (type lr : Half) (rearm reply : Bool) : Keeps s.KeepsMark (returnRun type rearm reply lr) :=
  have idle : Keeps s.KeepsMark (do Machine.event fun t => t.setPhase .idle; Machine.complete .completed) :=
    keeps_bind event fun _ => complete _
  have ends : Keeps s.KeepsMark (returnEnd type reply lr) :=
    keeps_ite (keeps_bind (writeReplyFields type lr) fun _ => keeps_bind gap fun _ => keeps_bind sendFrame fun _ =>
      keeps_bind gap fun _ => idle) idle
  keeps_bind (emitting (.ret reply lr.toNat) (by simp) fun _ => ⟨rfl, rfl⟩) fun _ => keeps_bind gap fun _ =>
    keeps_ite (keeps_bind State.KeepsMark.rearm fun _ => keeps_bind gap fun _ => ends) ends

theorem dispatchReturnBody (reply : Bool) (lr : Half) : Keeps s.KeepsMark (dispatchReturnBody reply lr) := by
  refine keeps_bind (keeps_look _ _) fun seen => keeps_ite (raise _) ?_
  cases seen.phase with
  | idle => exact raise _
  | dispatching type _ _ rearm => exact keeps_ite (raise _) (keeps_ite (raise _) (returnRun type lr rearm reply))

/-! ### The handshake (R130 to R134) -/

theorem acpTurn : Keeps s.KeepsMark acpTurn :=
  keeps_acpTurn (State.KeepsMark.env s)
    (fun _ ht _ =>
      have hfreed : s.Freed _ := ht.frees (e := .armRx) rfl (.inl rfl)
      hfreed.keepsMark)
    (fun _ ht => ht.same rfl rfl) (fun _ ht => ht.same rfl rfl) fun _ _ ht => ht.same rfl rfl

theorem hsMatch (type : Half) (l : Nat) : Keeps s.KeepsMark (hsMatch type l) :=
  keeps_of_freed (leads_bind (leads_event fun _ ht => ht.frees (e := .hsMatch type l) rfl (.inr ⟨type, l, rfl⟩)) fun _ =>
    leads_bind freed_gap fun _ => leads_bind freed_event fun _ => leads_bind freed_gap fun _ =>
      leads_bind freed_event fun _ => leads_bind freed_gap fun _ => leads_bind freed_event fun _ =>
        leads_bind freed_gap fun _ => leads_bind freed_event fun _ => freed_event)

theorem waitTurn (expected : Half) : Keeps s.KeepsMark (waitTurn expected) := by
  refine keeps_bind (keeps_look _ _) fun p => keeps_bind (keeps_look _ _) fun _ => keeps_ite ?_ (keeps_pure _ _)
  refine keeps_bind callChkClrDone fun _ => keeps_bind gap fun _ => keeps_bind readResolution fun r =>
    keeps_bind gap fun _ => keeps_bind (rd16 _ _) fun type => keeps_bind gap fun _ => ?_
  cases awaited p expected type r with
  | some l => exact hsMatch type l
  | none =>
    exact keeps_bind (emitting (.hsDiscard type r) (by simp) fun _ => ⟨rfl, rfl⟩) fun _ => keeps_bind gap fun _ => rearm

theorem waitRxAndClearBody (expected : Half) : Keeps s.KeepsMark (waitRxAndClearBody expected) :=
  keeps_bind (keeps_look _ _) fun _ => keeps_ite (raise _)
    (keeps_bind event fun _ => keeps_bind gap fun _ => keeps_bind event fun _ => keeps_bind gap fun _ =>
      waitTurn expected)

/-! ### The instructions and the steps -/

theorem of_hostRequest {body : Block Unit} (hbody : Keeps s.KeepsMark body) (hnext : hostRequest body s = .next t) :
    s.KeepsMark t := by
  obtain ⟨_, _, _, rfl⟩ := hostRequest_next hnext
  exact finish_keeps hbody _ ((refl s).same rfl rfl)

/-- POLL hands up no answered frame (R111, R112). -/
theorem of_poll {rmode : RMode} (ha : s.answeredFast = true) (hnext : exec (.poll rmode) s = .next t) :
    t.phase = s.phase ∧ s.KeepsMark t := by
  obtain ⟨hok, hf, hbusy, _⟩ := hostRequest_next hnext
  obtain ⟨u, hu, _, hexec⟩ | ⟨_, _, _, _, hfree, _⟩ := poll_cases ⟨hok, hf, hbusy⟩
  · cases (hexec rmode).symm.trans hnext
    exact ⟨hu.phase, hu.mark⟩
  · exact absurd (ha.symm.trans hfree) (by decide)

theorem of_exec {i : Instr} (ha : s.answeredFast = true) (hnext : exec i s = .next t) : s.KeepsMark t := by
  cases i with
  | beginReceive => exact of_hostRequest (keeps_bind rearm fun _ => complete _) hnext
  | poll rmode => exact (of_poll ha hnext).2
  | send => exact of_hostRequest sendBody hnext
  | armAndClearPending =>
    exact of_hostRequest (keeps_bind event fun _ => keeps_bind gap fun _ => acpTurn) hnext
  | waitRxAndClear expected => exact of_hostRequest (waitRxAndClearBody expected) hnext
  | dmaCancel =>
    have hbody : Keeps s.KeepsMark (do Machine.event State.cancelRx; Machine.complete .completed) :=
      keeps_bind (emitting .cancelRx (by simp) fun _ => ⟨rfl, rfl⟩) fun _ => complete _
    exact of_hostRequest hbody hnext
  | dispatchReturn reply lr => exact of_hostRequest (dispatchReturnBody reply lr) hnext
  | armRx | armTx | getRemaining | chkClrDone | cancel =>
    obtain ⟨_, _, ht⟩ := guarded_next hnext
    cases ht
    exact (refl s).emits rfl (by simp) rfl

theorem of_resumeHeld (hnext : resumeHeld s = .next t) : s.KeepsMark t := by
  obtain ⟨_, _, hnext⟩ := guarded_next hnext
  cases hb : s.busyOp with
  | none =>
    rw [hb] at hnext
    cases hnext
    exact refl s
  | acpHold =>
    rw [hb] at hnext
    cases hnext
    exact finish_keeps acpTurn s (refl s)
  | wait expected =>
    rw [hb] at hnext
    cases hnext
    exact finish_keeps (waitTurn expected) s (refl s)

/-- No step hands up an answered frame again, or clears its marker without a re-arm or an awaited reply. -/
theorem of_step (ha : s.answeredFast = true) (hstep : step s = .next t) : s.KeepsMark t := by
  obtain ⟨_, _, hmove⟩ := step_next hstep
  cases hmove with
  | call _ _ hexec => exact of_exec (s := { s with driverCall := none }) ha hexec
  | stutter => exact refl s
  | @request _ during rest _ _ _ _ _ hexec => exact of_exec (s := { s with inputs := rest, sched := during }) ha hexec
  | @illegal _ during rest _ _ _ hnext =>
    exact of_hostRequest (s := { s with inputs := rest, sched := during }) (raise _) hnext
  | @resume during rest _ _ _ hnext => exact of_resumeHeld (s := { s with inputs := rest, sched := during }) hnext
  | hostRead _ _ hnext =>
    obtain ⟨_, _, ⟨_, rfl⟩ | rfl⟩ := hostRead_next hnext
    · exact (refl s).same rfl rfl
    · exact (refl s).same rfl rfl
  | hostWrite _ _ hnext =>
    obtain ⟨_, _, rfl, _, rfl⟩ := hostWrite_next hnext
    exact (refl s).same rfl rfl
  | @env e rest => exact (State.KeepsMark.env s).env { s with inputs := rest } e ((refl s).same rfl rfl)

end State.KeepsMark

end Sys2Proof.Machine

/-! ## The obligations of 42_receive.md -/

namespace Sys2Proof.Proofs.Receive

open Sys2Proof Sys2Proof.Machine Sys2Proof.Claims

/-- Settles O24: POLL's cases are those of the codec's tests, and each case reads only the fields its function uses. -/
theorem pollDecidesByTheCodec : Obligations.PollDecidesByTheCodec := by
  intro s rmode type len1 len2 valid hr hs hp ha ht h1 h2 hv
  simp only [pollByCodec, headerReady_iff]
  by_cases hcase : 4 ≤ s.params.frameSize - s.remaining ∧ s.answeredFast = false
  · obtain ⟨hheader, hanswered⟩ := hcase
    rw [if_pos ⟨hheader, hanswered⟩]
    cases hd : s.doneFlag with
    | true =>
      have hread := readResolution_undisturbed (s := s.counted.chkClrDone) hs h1 h2 hv
      rw [if_pos rfl]
      cases hres : resolveFull len1 valid len2 with
      | len l => exact poll_landed hr hp ha hs hheader hanswered hd ht (hres ▸ hread)
      | invalid => exact poll_landed_invalid hr hp ha hs hheader hanswered hd (hres ▸ hread)
    | false =>
      rw [if_neg Bool.false_ne_true]
      cases hfast : fastReady (s.params.frameSize - s.remaining) len1 with
      | true => exact poll_fast hr hp ha hs hheader hanswered hd ht h1 hfast
      | false => exact poll_fast_waits hr hp ha hs hheader hanswered hd h1 hfast
  · rw [if_neg hcase]
    cases hd : s.doneFlag with
    | true =>
      rw [if_pos rfl]
      by_cases hres : s.answeredFast = false ∧ valid ≠ 0
      · obtain ⟨hanswered, hvalid⟩ := hres
        rw [hanswered, resolveCompleted_of_valid len2 hvalid]
        exact poll_completed hr hp ha hs hcase hd hanswered hvalid ht hv h2
      · rw [resolveCompleted, if_neg hres]
        refine poll_completed_drops hr hp ha hs hcase hd ?_
        by_cases hanswered : s.answeredFast = true
        · exact .inl hanswered
        · have hvalid : valid = 0 := by simpa [hanswered] using hres
          exact .inr (hvalid ▸ hv)
    | false =>
      rw [if_neg Bool.false_ne_true]
      exact poll_nothing hr hp ha hs hcase hd

/-- Settles O25: of the frame, case 1b reads `payload_length_1` and the hand-off reads the type, and no other field. -/
theorem fastPathNeedsOnlyTheHeader : Obligations.FastPathNeedsOnlyTheHeader := by
  intro s rmode type len1 hr hs hp ha hanswered hd hheader ht h1
  by_cases hfast : len1 ≠ 0 ∧ 4 + len1.toNat ≤ s.params.frameSize - s.remaining
  · rw [if_pos hfast]
    exact poll_fast hr hp ha hs hheader hanswered hd ht h1 ((fastReady_iff _ _).mpr hfast)
  · rw [if_neg hfast]
    exact poll_fast_waits hr hp ha hs hheader hanswered hd h1
      (Bool.eq_false_iff.mpr fun h => hfast ((fastReady_iff _ _).mp h))

/-- Settles O26: neither case of R111 applies. -/
theorem pollWithNothingToDoReturnsNoMsg : Obligations.PollWithNothingToDoReturnsNoMsg := by
  intro s rmode hr hs hp ha hd h
  refine poll_nothing hr hp ha hs (fun ⟨hheader, hanswered⟩ => ?_) hd
  rcases h with h | h
  · omega
  · exact Bool.false_ne_true (hanswered.symm.trans h)

/-- Settles O33: an answered frame with no completion raised leaves POLL nothing to do, and RX_LAND wants ACTIVE. -/
theorem overLengthStallPersists : Obligations.OverLengthStallPersists := by
  intro s rmode b hr hs hp ha hdone hd hanswered
  have hfault : s.fault = none := hr.2.1
  refine ⟨_, pollWithNothingToDoReturnsNoMsg s rmode hr hs hp ha hd (.inr hanswered), ?_, ?_⟩
  · simp [State.tookRemaining, State.chkClrDone, State.withResult, hd]
  · refine (envStep_rxLand_overruns (s := s.tookRemaining.chkClrDone.withResult _) b hfault ?_).trans ?_
    · simp [hdone]
    · simp [State.raise, hdone]

/-- Settles O21: issued again, the request finds a transfer just armed, with nothing pending. -/
theorem beginReceiveArmsReception : Obligations.BeginReceiveArmsReception := by
  intro s hr hs
  have hagain : State.Ready ((rearmed s).withResult (some .completed)) := hr
  refine ⟨_, beginReceive_undisturbed hr hs, by rw [rearmed_eq]; rfl, ?_⟩
  rw [beginReceive_undisturbed hagain hs, rearmed_of_active rfl rfl rfl rfl]
  rfl

/-- Settles O29: the resolution is invalid in case 1a and in case 2, and case 1b waits on a length of 0. -/
theorem invalidFrameIsDroppedAndRearmed : Obligations.InvalidFrameIsDroppedAndRearmed := by
  intro s rmode hr hs hp ha h1 hv
  have hfault : s.fault = none := hr.2.1
  have hread : readResolution s.counted.chkClrDone = .ok .invalid s.counted.chkClrDone :=
    readResolution_of_fields (s := s.counted.chkClrDone) (len2 := 0) hs h1 (fun _ => hv) fun _ h => absurd rfl h
  have hwaits : fastReady (s.params.frameSize - s.remaining) 0 = false := by simp [fastReady]
  cases hd : s.doneFlag with
  | false =>
    have hpoll : exec (.poll rmode) s = .next (s.tookRemaining.chkClrDone.withResult (some .noMsg)) := by
      by_cases hcase : 4 ≤ s.params.frameSize - s.remaining ∧ s.answeredFast = false
      · obtain ⟨hheader, hanswered⟩ := hcase
        exact poll_fast_waits hr hp ha hs hheader hanswered hd h1 hwaits
      · exact poll_nothing hr hp ha hs hcase hd
    refine ⟨_, hpoll, ?_⟩
    simp [hfault, hp, hd]
  | true =>
    by_cases hcase : 4 ≤ s.params.frameSize - s.remaining ∧ s.answeredFast = false
    · obtain ⟨hheader, hanswered⟩ := hcase
      refine ⟨_, poll_landed_invalid hr hp ha hs hheader hanswered hd hread, ?_⟩
      simp [rearmed, hfault, hp, hd, hheader, hanswered]
    · refine ⟨_, poll_completed_drops hr hp ha hs hcase hd (.inr hv), ?_⟩
      simp [rearmed, hfault, hp, hd, hcase]

/-- Settles O28: the count still stands at one byte when the flag is found set, so case 1a takes the whole frame. -/
theorem completionBetweenCountAndFlagIsTaken : Obligations.CompletionBetweenCountAndFlagIsTaken := by
  intro s rmode b type len1 hr hp ha hanswered hd hactive hlanded hsched ht h1 hlen hfits
  obtain ⟨hok, hfault, hbusy⟩ := id hr
  have hsize := Params.frameSize_eq_payloadCap_add hok
  have hbounds := Params.frameSize_bounds hok
  have htransfer : s.rxState.inTransfer = true := hactive ▸ rfl
  have hrem : s.remaining = 1 := by
    rw [remaining_of_inTransfer htransfer]
    omega
  set u := State.received [b] { s.counted with sched := [] } with hu
  have hgap : between s.counted = .ok () u :=
    between_burst hsched (runEnv_received [] hfault hactive hlanded) hfault rfl
  have field {off : Nat} {v : Half} (hoff : off + 1 < s.rxLanded) (h : s.rxField off = some v) :
      u.rxField off = some v := (rxField_write hoff).trans h
  have hread : readResolution u.chkClrDone = .ok (.len len1.toNat) u.chkClrDone := by
    rw [← resolveFull_of_len1 0 0 hlen]
    exact readResolution_of_fields (s := u.chkClrDone) rfl (field (by rw [len1Off]; omega) h1)
      (fun h => absurd h hlen) fun h => absurd h hlen
  have hheader : 4 ≤ s.params.frameSize - s.remaining := by omega
  have hdetect := (pollDetect_landed (s := u) rfl hheader hanswered rfl).trans (pollLanded_len hread)
  refine (poll_of_found (t := u.chkClrDone) hr hp ha hgap hdetect rfl
    (field (by rw [typeOff]; omega) ht)).trans ?_
  have hcounted := tookRemaining_of_inTransfer (s := s.withResult none) htransfer
  rw [handUp_of_fits (s := u.chkClrDone) hfits]
  simp only [hu, State.counted, hcounted]
  simp [State.received, State.chkClrDone, State.setPhase, State.emit, State.withResult, Memory.writeFrom, hd, ← hlanded]

/-- A POLL after the completion of a well-formed frame hands the frame up on `len2`, in case 1a and in case 2. -/
theorem poll_of_wellFormed {s : State} {fr : Frame} (rmode : RMode) (hr : s.Ready) (hs : s.Undisturbed)
    (hp : s.phase = .idle) (ha : s.armedSinceReset = true) (hd : s.doneFlag = true) (hanswered : s.answeredFast = false)
    (hsize : s.params.frameSize = fr.pay.length + 8) (hwf : wellFormed s.params fr = true)
    (hbytes : ∀ off, off < s.params.frameSize → s.rxbuf.read off = (serializeFrame fr)[off]?) :
    exec (.poll rmode) s = .next (((s.tookRemaining.chkClrDone.setPhase (.dispatching fr.type fr.len2.toNat rmode
      true)).emit (.dispatch fr.type fr.len2.toNat rmode)).withResult (some .dispatched)) := by
  have hbounds := Params.frameSize_bounds hr.1
  have hlength : (serializeFrame fr).length = s.params.frameSize := (serializeFrame_length fr).trans hsize.symm
  have hfield {off : Nat} (hoff : off + 1 < s.params.frameSize) :
      s.rxField off = some (fieldAt (serializeFrame fr) off) :=
    rxField_of_bytes (hlength ▸ hbytes) (hlength ▸ hoff)
  have htype : s.rxField typeOff = some fr.type := by
    rw [hfield (by rw [typeOff]; omega), fieldAt_typeOff_serializeFrame]
  have hlen1 : s.rxField len1Off = some fr.len1 := by
    rw [hfield (by rw [len1Off]; omega), fieldAt_len1Off_serializeFrame]
  have hlen2 : s.rxField (len2Off s.params) = some fr.len2 := by
    rw [hfield (by rw [len2Off]; omega), fieldAt_len2Off_serializeFrame hsize]
  have hvalid : s.rxField (validOff s.params) = some fr.valid := by
    rw [hfield (by rw [validOff]; omega), fieldAt_validOff_serializeFrame hsize]
  obtain ⟨_, hfits, _⟩ := (wellFormed_iff _ _).mp hwf
  rw [pollDecidesByTheCodec s rmode _ _ _ _ hr hs hp ha htype hlen1 hlen2 hvalid,
    pollByCodec_wellFormed rmode hd hanswered hwf, handUp_of_fits (s := s.tookRemaining.chkClrDone) hfits]

/-- Settles O34: the landed bytes are the frame's image, whose fields the codec reads back. -/
theorem wellFormedFrameIsHandedUp : Obligations.WellFormedFrameIsHandedUp := by
  intro s rmode fr hr hs hp hpay hwf
  obtain ⟨hok, hfault, _⟩ := id hr
  have hsize : s.params.frameSize = fr.pay.length + 8 := hpay ▸ Params.frameSize_eq_payloadCap_add hok
  have hlength : (serializeFrame fr).length = s.params.frameSize := (serializeFrame_length fr).trans hsize.symm
  set t := (rearmed s).withResult (some .completed)
  have hrun : t.runEnv ((serializeFrame fr).map .rxLand ++ [.rxComplete]) = t.received (serializeFrame fr) :=
    runEnv_received (s := t) (b := loByte fr.type) _ hfault rfl ((Nat.zero_add _).trans hlength)
  have hbytes : ∀ off, off < s.params.frameSize →
      (t.received (serializeFrame fr)).rxbuf.read off = (serializeFrame fr)[off]? :=
    fun off hoff => received_read (s := t) hfault rfl rfl hlength (by omega) (by omega)
  have hpoll := poll_of_wellFormed (s := t.received (serializeFrame fr)) rmode hr hs hp rfl rfl rfl hsize hwf hbytes
  exact ⟨t, _, beginReceive_undisturbed hr hs, (congrArg (exec (.poll rmode)) hrun).trans hpoll, rfl, rfl, hfault, rfl,
    hbytes⟩

/-- Settles O36: with no reply the request only re-arms where `d_rearm` says so, and ends the dispatch. -/
theorem returnWithoutReplyRearmsAsMarked : Obligations.ReturnWithoutReplyRearmsAsMarked := by
  intro s type len rmode hr hs
  have hreturn {rearm : Bool} (hp : s.phase = .dispatching type len rmode rearm) : exec (.dispatchReturn false 0) s =
      .next (((rearmedIf rearm (s.emit (.ret false 0))).setPhase .idle).withResult (some .completed)) :=
    dispatchReturn_runs hr hp (fun _ => rfl) (fun h => absurd h Bool.false_ne_true)
      ((returnRun_undisturbed (s := s.withResult none) hs).trans (by cases rearm <;> rfl))
  refine ⟨fun hp => (hreturn hp).trans ?_, hreturn⟩
  rw [ghost_after]
  simp [rearmedIf, rearmed, State.armRx, State.setAnswered, State.setPhase, State.withResult, State.emit,
    State.leavesGhost]

/-- Settles O37: the reply's fields go to STAGE, the copy takes STAGE to TXBUF, and the re-arm touches neither. -/
theorem returnWithReplyFramesAndSends : Obligations.ReturnWithReplyFramesAndSends := by
  intro s lr type len rmode rearm hr hs hp hbusy hfits
  have hsize : 8 ≤ s.params.frameSize := by have := Params.frameSize_bounds hr.1; omega
  set v := rearmedIf rearm ((s.withResult none).emit (.ret true lr.toNat))
  have hv : v.sched = [] := rearmedIf_sched.trans hs
  obtain ⟨u, hu, hend⟩ := returnEnd_reply (type := type) (lr := lr) hv
  have hrun := (returnRun_undisturbed (type := type) (rearm := rearm) (s := s.withResult none) hs).trans hend
  have hparams : v.params = s.params := rearmedIf_params
  have hstage : ((u.armTx.setPhase .idle).withResult (some .completed)).stage =
      replyStage s.params type lr s.stage :=
    hu.stage.trans (by rw [hparams, show v.stage = s.stage from rearmedIf_stage])
  refine ⟨_, dispatchReturn_runs hr hp (fun h => absurd h.symm Bool.false_ne_true) (fun _ => ⟨hbusy, hfits⟩) hrun,
    ?state, ?type, ?len1, ?len2, ?valid, ?other, ?sent, ?above⟩
  case state =>
    refine (congrArg (fun w : State => (w.armTx.setPhase .idle).withResult (some .completed)) hu.frame).trans ?_
    cases rearm <;> simp [v, rearmedIf, rearmed, State.armTx, State.setPhase, State.withResult, State.emit, State.armRx,
      State.setAnswered, State.leavesGhost]
  case type => exact stageField_of_holdsHalf (hstage ▸ replyStage_type hsize)
  case len1 => exact stageField_of_holdsHalf (hstage ▸ replyStage_len1 hsize)
  case len2 => exact stageField_of_holdsHalf (hstage ▸ replyStage_len2 hsize)
  case valid => exact stageField_of_holdsHalf (hstage ▸ replyStage_valid)
  case other => exact fun off hpay hother => hstage ▸ replyStage_other hsize hpay hother
  case sent => exact fun off hoff => hu.sent off (hparams ▸ hoff)
  case above => exact fun off hoff =>
    (hu.above off (hparams ▸ hoff)).trans (congrArg (Memory.read · off) rearmedIf_txbuf)

/-- Settles O22: the environment keeps what ARM_RX left, and a fault is the only stop before the marker is cleared. -/
theorem beginReceiveUnderAnyInterleaving : Obligations.BeginReceiveUnderAnyInterleaving := by
  intro s hr
  obtain ⟨hbegun, hdone⟩ := finish_of_leads
    (E := fun t => s.Begun t ∧ (t.fault = none → t.answeredFast = false ∧ t.result = some .completed))
    (leads_beginReceiveBody hr) (fun _ ht => ⟨ht.1, fun _ => ht.2⟩) (fun _ ht => ⟨ht.1, fun h => absurd h ht.2⟩) rfl
  refine ⟨_, hostRequest_of_ready hr beginReceiveBody, hbegun.txbuf, hbegun.stage, hbegun.phase, hbegun.hsState,
    hbegun.busyOp, hbegun.armed, hbegun.trace, fun h => ?_⟩
  obtain ⟨hanswered, hresult⟩ := hdone h
  exact ⟨hanswered, hresult, hbegun.notIdle⟩

/-- Settles O31: the search ends, or finds a frame and hands it up, and keeps the same on the way. -/
theorem pollNeverBlocks : Obligations.PollNeverBlocks := by
  intro s rmode hr
  rcases poll_cases hr with ⟨t, ht, hresult, hexec⟩ | ⟨u, type, f, hu, _, _, hexec⟩
  · exact ⟨t, hexec rmode, ht.busyOp, ht.txbuf, ht.stage, ht.hsState, ht.inRange, fun h => .inl (hresult h)⟩
  · obtain ⟨v, hv, ⟨hf, hend⟩ | ⟨_, hend⟩⟩ := pollHandUp_cases (type := type) (f := f) rmode hu
    · exact ⟨_, hexec rmode, hend rmode ▸ ⟨hv.busyOp, hv.txbuf.trans hu.txbuf, hv.stage.trans hu.stage,
        hv.hsState.trans hu.hsState, hv.inRange, fun h => absurd h hf⟩⟩
    · exact ⟨_, hexec rmode, hend rmode ▸ ⟨hv.busyOp, hv.txbuf.trans hu.txbuf, hv.stage.trans hu.stage,
        hv.hsState.trans hu.hsState, hv.inRange, fun _ => .inr rfl⟩⟩

/-- Settles O32: POLL uses the mode in its hand-off only, after a search that does not see it. -/
theorem restrictionModeIsPassedThrough : Obligations.RestrictionModeIsPassedThrough := by
  refine ⟨fun s m m' hr => ?_, fun s m hpoll => step_withDispatchMode hpoll⟩
  rcases poll_cases hr with ⟨t, ht, _, hexec⟩ | ⟨u, type, f, hu, _, _, hexec⟩
  · obtain ⟨new, htrace, hquiet, _⟩ := ht.mark
    exact ⟨t, t, new, hexec m, hexec m', htrace, by rw [map_withMode_of_noDispatch hquiet, htrace],
      fun ty l r h => absurd h (hquiet ty l r), rfl, fun hp => .inl ⟨ht.phase.trans hp, ht.phase.trans hp⟩⟩
  · obtain ⟨v, hv, hends⟩ := pollHandUp_cases (type := type) (f := f) m hu
    obtain ⟨before, hbefore, hbeforeQuiet, _⟩ := hu.mark
    obtain ⟨after, hafter, hafterQuiet, _⟩ := hv.mark
    have hphase (n : RMode) : (v.withDispatchMode n).phase = .dispatching type f.len n f.rearm := by
      rw [State.withDispatchMode, hv.phase]
      rfl
    have htrace : v.trace = s.trace ++ (before ++ after) := by
      rw [hafter, State.setPhase_trace, hbefore, List.append_assoc]
    have hquiet : noDispatch (before ++ after) := noDispatch_append hbeforeQuiet hafterQuiet
    have hmap := map_withMode_of_noDispatch (m := m') hquiet
    obtain ⟨_, hend⟩ | ⟨_, hend⟩ := hends
    · refine ⟨_, _, before ++ after, hexec m, hexec m', ?_⟩
      rw [hend, hend]
      exact ⟨htrace, hmap.symm ▸ htrace, fun ty l r h => absurd h (hquiet ty l r), rfl,
        fun _ => .inr ⟨type, f.len, f.rearm, hphase m, hphase m'⟩⟩
    · refine ⟨_, _, before ++ after ++ [.dispatch type f.len m], hexec m, hexec m', ?_⟩
      rw [hend, hend]
      refine ⟨?_, ?_, fun ty l r h => ?_, rfl, fun _ => .inr ⟨type, f.len, f.rearm, hphase m, hphase m'⟩⟩
      · show v.trace ++ _ = _
        rw [htrace, List.append_assoc]
      · show v.trace ++ _ = _
        rw [htrace, List.map_append, hmap, List.append_assoc]
        rfl
      · rcases List.mem_append.mp h with h | h
        · exact absurd h (hquiet ty l r)
        · cases List.mem_singleton.mp h
          rfl

/-- Settles O30: what every step from an answered frame keeps of the marker, with POLL's phase besides. -/
theorem answeredFrameIsNotHandedUpAgain : Obligations.AnsweredFrameIsNotHandedUpAgain := by
  refine ⟨fun s t rmode ha hnext => ?_, fun s t ha hstep => ?_⟩
  · obtain ⟨hphase, new, htrace, hquiet, _⟩ := State.KeepsMark.of_poll ha hnext
    exact ⟨hphase, new, htrace, hquiet⟩
  · obtain ⟨new, htrace, hquiet, hfrees⟩ := State.KeepsMark.of_step ha hstep
    exact ⟨new, htrace, hquiet, hfrees ha⟩

end Sys2Proof.Proofs.Receive

/-! ## A reply under every interleaving (R90, R119, R126) -/

namespace Sys2Proof.Machine

variable {α β : Type} {P Q : State → Prop} {p : Params} {m : Memory} {n : Nat} {s t : State} {type lr : Half}

theorem leads_stop {R R' : State → Prop} {x : Block α} (h : Leads P Q R x) (hr : ∀ s, R s → R' s) :
    Leads P Q R' x := by
  intro s hs
  have hx := h s hs
  cases hb : x s <;> rw [hb] at hx
  · exact hx
  · exact hr _ hx

/-- From a state with `P` the piece ends in a state with `Q`, and only a fault can stop it (R141). -/
abbrev UnlessFaulted (P Q : State → Prop) (x : Block α) : Prop :=
  Leads (fun s => P s ∧ s.fault = none) (fun s => Q s ∧ s.fault = none) (fun s => s.fault ≠ none) x

/-- A look whose value `P` determines. -/
theorem unlessFaulted_look {g : State → α} {f : α → Block β} (a : α) (hg : ∀ s, P s → g s = a)
    (hf : UnlessFaulted P Q (f a)) : UnlessFaulted P Q (look g >>= f) := by
  intro s hs
  rw [Block.bind_ok (look_apply g s), hg s hs.1]
  exact hf s hs

theorem unlessFaulted_event {f : State → State} (h : ∀ s, P s → Q (f s))
    (hf : ∀ s : State, (f s).fault = s.fault := by exact fun _ => rfl) : UnlessFaulted P Q (event f) :=
  leads_event fun s hs => ⟨h s hs.1, (hf s).trans hs.2⟩

theorem unlessFaulted_raise (r : FaultRecord) : UnlessFaulted P Q (raiseFault r : Block α) :=
  leads_raise fun _ _ h => Option.some_ne_none r h

/-- Nothing holds, STAGE is `m`, and the first `n` bytes of TXBUF are those of STAGE (R126). -/
structure State.Copied (p : Params) (m : Memory) (n : Nat) (s : State) : Prop where
  params : s.params = p
  busyOp : s.busyOp = .none
  stage : s.stage = m
  sent : ∀ off, off < n → s.txByteAt off = s.stageByte off

theorem stageByte_congr (h : t.stage = s.stage) (off : Nat) : t.stageByte off = s.stageByte off := by
  rw [State.stageByte, h, State.stageByte]

theorem txByteAt_congr (h : t.txbuf = s.txbuf) (off : Nat) : t.txByteAt off = s.txByteAt off := by
  rw [State.txByteAt, h, State.txByteAt]

/-- The environment writes neither STAGE nor TXBUF, and outside a wait it does not touch `busy_op` (R42, R135). -/
theorem State.Copied.env : EnvKeeps (State.Copied p m n) where
  env s e hs := by
    obtain ⟨hbusy, _⟩ := envStep_outside_wait s e (by rw [hs.busyOp]; rfl)
    refine ⟨by simpa using hs.params, hbusy.trans hs.busyOp, by simpa using hs.stage, fun off hoff => ?_⟩
    rw [txByteAt_congr (envStep_txbuf s e), stageByte_congr (envStep_stage s e)]
    exact hs.sent off hoff
  sched _ _ hs := { hs with }

namespace UnlessFaulted

theorem gap : UnlessFaulted (State.Copied p m n) (State.Copied p m n) between :=
  leads_stop (leads_between State.Copied.env fun _ hs => hs.busyOp) fun _ hs => hs.2

theorem wr16 (off : Nat) (v : Half) :
    UnlessFaulted (State.Copied p m 0) (State.Copied p (m.writeHalf off v) 0) (wr16 .stage off v) := by
  have write {m : Memory} (off : Nat) (b : Byte) :
      UnlessFaulted (State.Copied p m 0) (State.Copied p (m.write off b) 0) (bufWrite .stage off b) :=
    unlessFaulted_event fun s hs =>
      ⟨hs.params, hs.busyOp, congrArg (Memory.write · off b) hs.stage, fun a ha => absurd ha (Nat.not_lt_zero a)⟩
  exact leads_bind (write off _) fun _ => leads_bind gap fun _ => write (off + 1) _

theorem writeReplyFields : UnlessFaulted (State.Copied p m 0) (State.Copied p (replyStage p type lr m) 0)
    (writeReplyFields type lr) :=
  unlessFaulted_look p (fun _ hs => hs.params) <|
    leads_bind (wr16 _ _) fun _ => leads_bind gap fun _ => leads_bind (wr16 _ _) fun _ =>
      leads_bind gap fun _ => leads_bind (wr16 _ _) fun _ => leads_bind gap fun _ => wr16 _ _

/-- An event that writes neither STAGE nor TXBUF, and leaves `busy_op` and the fault record. -/
theorem same {f : State → State} (hf : ∀ s : State, (f s).params = s.params ∧ (f s).busyOp = s.busyOp ∧
      (f s).stage = s.stage ∧ (f s).txbuf = s.txbuf ∧ (f s).fault = s.fault := by
        exact fun _ => ⟨rfl, rfl, rfl, rfl, rfl⟩) :
    UnlessFaulted (State.Copied p m n) (State.Copied p m n) (event f) := by
  refine leads_event fun s ⟨hs, hfault⟩ => ?_
  obtain ⟨hp, hbusy, hstage, htx, hsame⟩ := hf s
  refine ⟨⟨hp.trans hs.params, hbusy.trans hs.busyOp, hstage.trans hs.stage, fun off hoff => ?_⟩, hsame.trans hfault⟩
  rw [txByteAt_congr htx, stageByte_congr hstage]
  exact hs.sent off hoff

/-- Each byte is still what STAGE holds when it is written to TXBUF (R126, R127). -/
theorem copyBytes (k off : Nat) :
    UnlessFaulted (State.Copied p m off) (State.Copied p m (off + k)) (copyBytes off k) := by
  induction k generalizing off with
  | zero => exact fun _ hs => hs
  | succ k ih =>
    intro s hs
    have write : UnlessFaulted (State.Copied p m off) (State.Copied p m (off + 1))
        (bufWrite .txbuf off (s.stageByte off)) := unlessFaulted_event fun t ht => by
      refine ⟨ht.params, ht.busyOp, ht.stage, fun a ha => ?_⟩
      by_cases haoff : a = off
      · subst haoff
        have hbyte : t.stageByte a = s.stageByte a := stageByte_congr (ht.stage.trans hs.1.stage.symm) a
        exact (congrArg (Option.getD · _) (Memory.read_write_same t.txbuf a _)).trans hbyte.symm
      · have hread : (t.txbuf.write off (s.stageByte off)).read a = t.txbuf.read a :=
          Memory.read_write_other _ _ haoff
        exact (congrArg (Option.getD · _) hread).trans (ht.sent a (by omega))
    rw [Machine.copyBytes, Block.bind_ok (bufRead_stage off s), show off + (k + 1) = off + 1 + k by omega]
    exact leads_bind gap (fun _ => leads_bind write fun _ => leads_bind gap fun _ => ih (off + 1)) s hs

theorem sendFrame : UnlessFaulted (State.Copied p m 0) (State.Copied p m p.frameSize) sendFrame := by
  refine unlessFaulted_look p.frameSize (fun _ hs => by rw [hs.params]) ?_
  have copy := copyBytes (p := p) (m := m) p.frameSize 0
  rw [Nat.zero_add] at copy
  exact leads_bind copy fun _ => same

theorem rearm : UnlessFaulted (State.Copied p m n) (State.Copied p m n) rearmRx :=
  leads_bind same fun _ => leads_bind gap fun _ =>
    same

/-- The reply framed in STAGE and copied to TXBUF whole, and the dispatch ended (R119). -/
theorem returnEnd : UnlessFaulted (State.Copied p m 0) (State.Copied p (replyStage p type lr m) p.frameSize)
    (returnEnd type true lr) :=
  leads_bind writeReplyFields fun _ => leads_bind gap fun _ => leads_bind sendFrame fun _ => leads_bind gap fun _ =>
    leads_bind same fun _ => same

theorem returnRun (rearm : Bool) : UnlessFaulted (State.Copied p m 0)
    (State.Copied p (replyStage p type lr m) p.frameSize) (returnRun type rearm true lr) := by
  refine leads_bind same fun _ => leads_bind gap fun _ => ?_
  cases rearm with
  | false => exact returnEnd
  | true => exact leads_bind UnlessFaulted.rearm fun _ => leads_bind gap fun _ => returnEnd

/-- A DISPATCH_RETURN with a reply passes R149's and R150's tests, or faults (R119). -/
theorem dispatchReturnBody {len : Nat} {rmode : RMode} {rearm : Bool} (hbusy : s.busyOp = .none)
    (hphase : s.phase = .dispatching type len rmode rearm) : UnlessFaulted (fun u => u = s.withResult none)
      (fun t => lr.toNat ≤ s.params.payloadCap ∧
        t.Copied s.params (replyStage s.params type lr s.stage) s.params.frameSize)
      (dispatchReturnBody true lr) := by
  refine unlessFaulted_look (s.withResult none) (fun _ hu => hu) ?_
  rw [State.withResult_phase, hphase]
  refine leads_ite (fun _ => unlessFaulted_raise _) fun _ => leads_ite (fun _ => unlessFaulted_raise _) fun _ =>
    leads_ite (fun _ => unlessFaulted_raise _) fun hlong => ?_
  have hfits : lr.toNat ≤ s.params.payloadCap := Nat.le_of_not_lt fun h => hlong ⟨rfl, h⟩
  refine leads_weaken (returnRun (p := s.params) (m := s.stage) rearm) (fun u hu => ?_)
    fun t ht => ⟨⟨hfits, ht.1⟩, ht.2⟩
  obtain ⟨hu, hf⟩ := hu
  subst hu
  exact ⟨⟨rfl, hbusy, rfl, fun off hoff => absurd hoff (Nat.not_lt_zero off)⟩, hf⟩

end UnlessFaulted

/-- What a DISPATCH_RETURN with a reply leaves in STAGE and TXBUF when it ends without a fault (R119, R128). -/
theorem dispatchReturn_copied {len : Nat} {rmode : RMode} {rearm : Bool}
    (hphase : s.phase = .dispatching type len rmode rearm) (hnext : exec (.dispatchReturn true lr) s = .next t)
    (hf : t.fault = none) : lr.toNat ≤ s.params.payloadCap ∧
      t.Copied s.params (replyStage s.params type lr s.stage) s.params.frameSize := by
  obtain ⟨_, hready, hbusy, rfl⟩ := hostRequest_next hnext
  exact finish_of_leads (E := fun t => t.fault = none → lr.toNat ≤ s.params.payloadCap ∧
      t.Copied s.params (replyStage s.params type lr s.stage) s.params.frameSize)
    (UnlessFaulted.dispatchReturnBody hbusy hphase) (fun _ ht _ => ht.1) (fun _ hstop h => absurd h hstop)
    ⟨rfl, hready⟩ hf

/-! ## The frame images in STAGE and TXBUF (R20, R21, R61) -/

theorem txImage_eq_stageImage (h : ∀ off, off < t.params.frameSize → t.txByteAt off = t.stageByte off) :
    t.txImage = t.stageImage := List.map_congr_left fun off hoff => h off (List.mem_range.mp hoff)

theorem stageImage_congr (hp : t.params = s.params) (h : t.stage = s.stage) : t.stageImage = s.stageImage := by
  rw [State.stageImage, State.stageImage, hp]
  exact List.map_congr_left fun off _ => stageByte_congr h off

@[simp] theorem stageImage_length (s : State) : s.stageImage.length = s.params.frameSize := by simp [State.stageImage]

/-- A 16-bit field of the image is the field of STAGE (R46). -/
theorem fieldAt_stageImage {off : Nat} (hoff : off + 1 < s.params.frameSize) :
    fieldAt s.stageImage off = s.stageField off := by
  simp [fieldAt, State.stageImage, State.stageField, hoff, Nat.lt_of_succ_lt hoff]

/-- The payload of the image stays where no byte of the payload region is written (R61). -/
theorem payload_stageImage_congr (hp : t.params = s.params)
    (h : ∀ off, payOff ≤ off → off < s.params.frameSize - 4 → t.stageByte off = s.stageByte off) :
    (t.stageImage.drop payOff).take s.params.payloadCap = (s.stageImage.drop payOff).take s.params.payloadCap := by
  refine List.ext_getElem (by simp [hp]) fun k hk _ => ?_
  simp only [List.length_take, List.length_drop, stageImage_length, hp, Params.payloadCap] at hk
  simp only [State.stageImage, List.getElem_take, List.getElem_drop, List.getElem_map, List.getElem_range]
  exact h _ (by omega) (by rw [payOff]; omega)

/-- The reply that stands in STAGE, read as a frame: R90's four fields around the payload as it stood. -/
theorem deserializeFrame_of_replyStage (hok : s.params.ok = true) (hp : t.params = s.params)
    (h : t.stage = replyStage s.params type lr s.stage) :
    deserializeFrame s.params t.stageImage =
      frameFields type lr ((s.stageImage.drop payOff).take s.params.payloadCap) := by
  have hbounds := Params.frameSize_bounds hok
  have hsize : 8 ≤ s.params.frameSize := by omega
  have field {off : Nat} {v : Half} (hoff : off + 1 < s.params.frameSize)
      (hv : (replyStage s.params type lr s.stage).HoldsHalf off v) : fieldAt t.stageImage off = v :=
    (fieldAt_stageImage (hp ▸ hoff)).trans (stageField_of_holdsHalf (h ▸ hv))
  have hpay : ∀ off, payOff ≤ off → off < s.params.frameSize - 4 → t.stageByte off = s.stageByte off :=
    fun off hlow hhigh => by
      rw [State.stageByte, h, replyStage_other hsize hlow (.inl hhigh), State.stageByte]
  rw [deserializeFrame, payload_stageImage_congr hp hpay, field (by rw [typeOff]; omega) (replyStage_type hsize),
    field (by rw [len1Off]; omega) (replyStage_len1 hsize), field (by rw [len2Off]; omega) (replyStage_len2 hsize),
    field (by rw [validOff]; omega) replyStage_valid, frameFields]

/-! ## SEND, undisturbed (R125, R129) -/

/-- SEND while no frame is leaving reads three fields of STAGE and tests them (R91, R125). -/
theorem sendBody_undisturbed (hs : s.sched = []) (hidle : s.txBusy = false) : sendBody s =
    if txFrameOk s.params (s.stageField len1Off) (s.stageField (len2Off s.params)) (s.stageField (validOff s.params))
    then sendAccepted s
    else .error .faulted (s.raise (.badTxFrame (s.stageField len1Off) (s.stageField (len2Off s.params))
      (s.stageField (validOff s.params)))) := by
  rw [sendBody, Block.bind_ok (look_apply id s), id, if_neg (by simp [hidle]), Block.bind_ok (rd16_stageField hs),
    Block.bind_ok (between_undisturbed hs), Block.bind_ok (rd16_stageField hs), Block.bind_ok (between_undisturbed hs),
    Block.bind_ok (rd16_stageField hs), Block.bind_ok (between_undisturbed hs), Block.ite_apply, raiseFault_apply]

/-- The copy, the arm, and the request of a round trip recorded (R126, R129). -/
theorem sendAccepted_undisturbed (hs : s.sched = []) : ∃ m, sendAccepted s = .ok ()
      ((State.armTx { s with txbuf := m }).setHs (if s.hsState = .armed then .reqSent else s.hsState)
        |>.withResult (some .completed)) ∧
      (∀ off, off < s.params.frameSize → m.read off = some (s.stageByte off)) ∧
      (∀ off, s.params.frameSize ≤ off → m.read off = s.txbuf.read off) := by
  obtain ⟨m, hsend, hin, hout⟩ := sendFrame_undisturbed s hs
  refine ⟨m, ?_, hin, hout⟩
  have harm : (State.armTx { s with txbuf := m }).sched = [] := hs
  rw [sendAccepted, Block.bind_ok hsend, Block.bind_ok (look_apply _ _)]
  by_cases hhs : s.hsState = .armed
  · rw [if_pos hhs]
    refine (congrFun (if_pos hhs) _).trans ?_
    rw [Block.bind_ok (between_undisturbed harm)]
    rfl
  · rw [if_neg hhs]
    exact congrFun (if_neg hhs) _

/-- A SEND that raises no fault has passed its test of the frame in STAGE (R125, R150). -/
theorem txFrameOk_of_send (hs : s.Undisturbed) (hidle : s.txBusy = false)
    (hnext : exec .send s = .next t) (hf : t.fault = none) :
    txFrameOk s.params (s.stageField len1Off) (s.stageField (len2Off s.params))
      (s.stageField (validOff s.params)) = true := by
  by_contra hbad
  obtain ⟨_, _, _, rfl⟩ := hostRequest_next hnext
  have hbody := (sendBody_undisturbed (s := s.withResult none) hs hidle).trans (if_neg hbad)
  rw [finish_error hbody] at hf
  cases hf

end Sys2Proof.Machine

/-! ## A frame leaving while the host writes STAGE (R102, R103, R127) -/

namespace Sys2Proof.Machine

open Sys2Proof.Claims

variable {frames : List (List Byte)} {image : List Byte} {left : Nat} {s t : State}

/-- A transmission of what stands in TXBUF has just been armed, and nothing has left yet (R95, R126). -/
structure State.Launched (s t : State) : Prop where
  params : t.params = s.params
  busyOp : t.busyOp = s.busyOp
  driverCall : t.driverCall = s.driverCall
  txFrames : t.txFrames = s.txFrames
  txPartial : t.txPartial = s.txPartial
  txBusy : t.txBusy = true
  txSent : t.txSent = 0
  sent : ∀ off, off < s.params.frameSize → t.txByteAt off = t.stageByte off

/-- The frame `image` stands in TXBUF with `left` bytes of it still to leave, and reaches the companion as one frame
after `frames` (R34, R102). -/
structure State.Delivers (frames : List (List Byte)) (image : List Byte) (left : Nat) (s : State) : Prop where
  ready : s.Ready
  noCall : s.driverCall = none
  standing : s.txImage = image
  leaving : 0 < left → s.txBusy = true ∧ s.txSent + left = s.params.frameSize ∧
    s.txPartial = (List.range s.txSent).map s.txByteAt ∧ s.txFrames = frames
  received : left = 0 → s.txBusy = false ∧ s.txFrames = frames ++ [image]

theorem State.Launched.delivers (h : s.Launched t) (hs : s.Inv) (hbusy : s.busyOp = .none) (hidle : s.txBusy = false)
    (hf : t.fault = none) : t.Delivers s.txFrames t.stageImage s.params.frameSize where
  ready := ⟨h.params ▸ hs.paramsOk, hf, h.busyOp.trans hbusy⟩
  noCall := h.driverCall.trans hs.noCall
  standing := txImage_eq_stageImage (h.params ▸ h.sent)
  leaving _ := ⟨h.txBusy, by rw [h.txSent, h.params, Nat.zero_add],
    by rw [h.txPartial, hs.txAtRest hidle, h.txSent]; rfl, h.txFrames⟩
  received hzero := by
    have := Params.frameSize_bounds hs.paramsOk
    omega

theorem core_run_succ {k : Nat} (h : step s = .next t) :
    Sys2Proof.core.run (k + 1) s = Sys2Proof.core.run k t := by
  have hcore : Sys2Proof.core.step s = .next t := h
  simp only [Host.Core.run, hcore]

namespace State.Delivers

theorem inputs (h : s.Delivers frames image left) (rest : List Input) :
    State.Delivers frames image left { s with inputs := rest } := { h with }

/-- TXBUF is a space of its own, and the channel reads no other (R127). -/
theorem writeStage (h : s.Delivers frames image left) (off : Nat) (b : Byte) :
    (s.writeByte .stage off b).Delivers frames image left := { h with }

/-- The channel moves the next byte of the image, and with the last one hands the frame over (R102). -/
theorem txByte (h : s.Delivers frames image (left + 1)) : (s.envStep .txByte).Delivers frames image left := by
  obtain ⟨hbusy, hsent, hpartial, hframes⟩ := h.leaving (Nat.succ_pos left)
  obtain ⟨_, hf, _⟩ := h.ready
  have hnext : s.txPartial ++ [s.txByteAt s.txSent] = (List.range (s.txSent + 1)).map s.txByteAt := by
    rw [hpartial, List.range_succ, List.map_append, List.map_singleton]
  cases left with
  | zero =>
    have hlast : s.txSent + 1 = s.params.frameSize := hsent
    rw [envStep_txByte_last hf hbusy hlast]
    refine { h with leaving := fun hpos => absurd hpos (Nat.lt_irrefl 0), received := fun _ => ⟨rfl, ?_⟩ }
    have hwhole : s.txPartial ++ [s.txByteAt s.txSent] = image := by
      rw [hnext, hlast]
      exact h.standing
    rw [hframes, hwhole]
  | succ more =>
    rw [envStep_txByte_more hf hbusy (by omega)]
    exact { h with
      leaving := fun _ => ⟨hbusy, (by omega : s.txSent + 1 + (more + 1) = s.params.frameSize), hnext, hframes⟩
      received := fun hzero => absurd hzero (Nat.succ_ne_zero more) }

/-- One TX_BYTE or one host write of STAGE, taken as the next input (log 5). -/
theorem step {x : Input} {rest : List Input} (hin : s.inputs = x :: rest) (hx : txOrStageWrite s.params.frameSize x)
    (h : s.Delivers frames image ((x :: rest).count (.env .txByte))) :
    ∃ t, Machine.step s = .next t ∧ t.inputs = rest ∧ t.params = s.params ∧
      t.Delivers frames image (rest.count (.env .txByte)) := by
  have hready : State.Ready { s with inputs := rest } := h.ready
  cases x with
  | env e =>
    cases e with
    | txByte =>
      rw [List.count_cons_self] at h
      exact ⟨_, (step_env h.noCall hin).trans (guarded_ready hready.1 hready.2.1), by simp, by simp,
        (h.inputs rest).txByte⟩
    | rxLand | rxComplete | ghostFire | ghostDrop | timeout => cases hx
  | hostWrite space off b =>
    cases space with
    | stage =>
      have hother : Input.hostWrite .stage off b ≠ .env .txByte := by simp
      rw [List.count_cons_of_ne hother] at h
      exact ⟨_, (step_hostWrite h.noCall hin).trans (hostAccess_within hready hx), rfl, rfl,
        (h.inputs rest).writeStage off b⟩
    | rxbuf | txbuf => cases hx
  | request | resume | hostRead => cases hx

/-- Once as many TX_BYTE steps have been taken as bytes were left, the companion has the frame (R102, R103). -/
theorem run (is : List Input) (hin : s.inputs = is) (his : ∀ x ∈ is, txOrStageWrite s.params.frameSize x)
    (h : s.Delivers frames image (is.count (.env .txByte))) :
    ∃ u : State, Sys2Proof.core.run is.length s = .next u ∧ u.Delivers frames image 0 := by
  induction is generalizing s with
  | nil => exact ⟨s, rfl, h⟩
  | cons x rest ih =>
    obtain ⟨hx, hrest⟩ := List.forall_mem_cons.mp his
    obtain ⟨t, hstep, htin, hparams, ht⟩ := h.step hin hx
    obtain ⟨u, hrun, hu⟩ := ih htin (hparams ▸ hrest) ht
    exact ⟨u, (core_run_succ hstep).trans hrun, hu⟩

end State.Delivers

end Sys2Proof.Machine

/-! ## The obligations of 43_transmit.md -/

namespace Sys2Proof.Proofs.Transmit

open Sys2Proof Sys2Proof.Machine Sys2Proof.Claims

variable {s t : State}

/-- Settles O38: a reply that raises no fault leaves its four fields in STAGE and STAGE's image in TXBUF, under every
interleaving. -/
theorem transmittedRepliesAreWellFormed : Obligations.TransmittedRepliesAreWellFormed := by
  intro s t lr type len rmode rearm hphase hnext hf
  obtain ⟨hok, _⟩ := exec_next_ready hnext
  obtain ⟨hfits, hcopied⟩ := dispatchReturn_copied hphase hnext hf
  rw [txImage_eq_stageImage (hcopied.params ▸ hcopied.sent),
    deserializeFrame_of_replyStage hok hcopied.params hcopied.stage]
  have hwf := wellFormed_frameFields type ((s.stageImage.drop payOff).take s.params.payloadCap) hfits
  exact ⟨hfits, rfl, rfl, rfl, rfl, hwf, resolveFull_of_wellFormed hwf, resolveCompleted_of_wellFormed hwf⟩

/-- Settles O39: the frame passes SEND's test, and the copy takes STAGE to TXBUF. -/
theorem sendCopiesStageAndArms : Obligations.SendCopiesStageAndArms := by
  intro s hr hs hidle hframe
  obtain ⟨m, haccepted, hin, hout⟩ := sendAccepted_undisturbed (s := s.withResult none) hs
  have hbody := (sendBody_undisturbed (s := s.withResult none) hs hidle).trans (if_pos hframe)
  refine ⟨_, (hostRequest_of_ready hr sendBody).trans (congrArg Host.Outcome.next (finish_ok (hbody.trans haccepted))),
    rfl, fun off hoff => ?_, hout⟩
  exact congrArg (Option.getD · _) (hin off hoff)

/-- A SEND that raises no fault launches STAGE as it stood (R125, R127). -/
theorem launched_of_send (hr : s.Ready) (hs : s.Undisturbed) (hidle : s.txBusy = false)
    (hnext : exec .send s = .next t) (hf : t.fault = none) : s.Launched t ∧ t.stage = s.stage := by
  obtain ⟨u, hu, hstate, hsent, _⟩ := sendCopiesStageAndArms s hr hs hidle (txFrameOk_of_send hs hidle hnext hf)
  obtain rfl : t = u := by simpa [hnext] using hu
  have hstage : t.stage = s.stage := by rw [hstate]
  have hcopy : ∀ off, off < s.params.frameSize → t.txByteAt off = t.stageByte off :=
    fun off hoff => (hsent off hoff).trans (stageByte_congr hstage off).symm
  refine ⟨⟨?_, ?_, ?_, ?_, ?_, ?_, ?_, hcopy⟩, hstage⟩ <;> rw [hstate]

/-- DISPATCH_RETURN outside a dispatch faults (R119, R144). -/
theorem dispatching_of_dispatchReturn {lr : Half} (hnext : exec (.dispatchReturn true lr) s = .next t)
    (hf : t.fault = none) : ∃ type len rmode rearm, s.phase = .dispatching type len rmode rearm := by
  cases hphase : s.phase with
  | dispatching type len rmode rearm => exact ⟨type, len, rmode, rearm, rfl⟩
  | idle =>
    obtain ⟨_, _, _, rfl⟩ := hostRequest_next hnext
    have hbody : dispatchReturnBody true lr (s.withResult none) =
        .error .faulted ((s.withResult none).raise (.sequenceError .dispatchReturn .idle)) := by
      rw [dispatchReturnBody, Block.bind_ok (look_apply id _), id, State.withResult_phase, hphase]
      rfl
    rw [finish_error hbody] at hf
    cases hf

/-- A reply that raises no fault launches STAGE as the request left it (R119, R127). -/
theorem launched_of_reply {lr : Half} (hr : s.Ready) (hs : s.Undisturbed) (hidle : s.txBusy = false)
    (hnext : exec (.dispatchReturn true lr) s = .next t) (hf : t.fault = none) : s.Launched t := by
  obtain ⟨type, len, rmode, rearm, hphase⟩ := dispatching_of_dispatchReturn hnext hf
  obtain ⟨hfits, _⟩ := dispatchReturn_copied hphase hnext hf
  obtain ⟨u, hu, hstate, _, _, _, _, _, hsent, _⟩ :=
    Receive.returnWithReplyFramesAndSends s lr type len rmode rearm hr hs hphase hidle hfits
  obtain rfl : t = u := by simpa [hnext] using hu
  cases rearm with
  | false | true => refine ⟨?_, ?_, ?_, ?_, ?_, ?_, ?_, hsent⟩ <;> rw [hstate] <;> rfl

/-- Settles O40: both requests launch STAGE's image from TXBUF, which neither the channel nor the host's writes
change. -/
theorem sendDeliversTheStagedFrame : Obligations.SendDeliversTheStagedFrame := by
  intro s t i is hinv hs hbusy hidle hi hnext hf his hcount
  obtain ⟨hok, hfault⟩ := exec_next_ready hnext
  have hr : s.Ready := ⟨hok, hfault, hbusy⟩
  have hlaunched : s.Launched t := by
    obtain rfl | ⟨lr, rfl⟩ := hi
    · exact (launched_of_send hr hs hidle hnext hf).1
    · exact launched_of_reply hr hs hidle hnext hf
  refine ⟨?delivered, fun hsend => ?send, fun lr type len rmode rearm hreply hphase => ?reply⟩
  case delivered =>
    have hstart := (hlaunched.delivers hinv hbusy hidle hf).inputs is
    obtain ⟨u, hrun, hu⟩ := (hcount ▸ hstart).run (s := { t with inputs := is }) is rfl (hlaunched.params ▸ his)
    obtain ⟨hdone, hframes⟩ := hu.received rfl
    obtain ⟨_, hgood, _⟩ := hu.ready
    exact ⟨u, hrun, hframes, hdone, hgood⟩
  case send =>
    subst hsend
    obtain ⟨_, hstage⟩ := launched_of_send hr hs hidle hnext hf
    exact stageImage_congr hlaunched.params hstage
  case reply =>
    subst hreply
    obtain ⟨_, hcopied⟩ := dispatchReturn_copied hphase hnext hf
    rw [← deserializeFrame_of_replyStage hok hcopied.params hcopied.stage]
    exact (serializeFrame_deserializeFrame hok ((stageImage_length t).trans
      (congrArg Params.frameSize hcopied.params))).symm

end Sys2Proof.Proofs.Transmit

/-! ## The handshake, undisturbed: each turn as one change of State (R130 to R134) -/

namespace Sys2Proof.Machine

open Sys2Proof.Claims

variable {s : State}

/-- A quiescent channel is not in DONE_PENDING, so that an arm leaves no ghost (R25, R131). -/
theorem leavesGhost_of_quiescent (h : s.quiescent = true) : s.leavesGhost = false := by
  refine Bool.eq_false_iff.mpr fun hleaves => ?_
  obtain ⟨hpending, _⟩ := State.leavesGhost_iff.mp hleaves
  simp [State.quiescent, hpending] at h

/-- The turn that completes an ARM_AND_CLEAR_PENDING (R130). -/
theorem acpTurn_completes (hs : s.sched = []) (h : s.quiescent = true) :
    acpTurn s = .ok () { s with
      rxState := .active
      rxLanded := 0
      armedSinceReset := true
      doneFlag := false
      answeredFast := false
      busyOp := .none
      hsState := .armed
      trace := s.trace ++ [.armRx]
      result := some .completed } := by
  refine (acpTurn_undisturbed hs h).trans (congrArg (EStateM.Result.ok ()) ?_)
  simp [State.armAndClear, State.armRx, State.setBusy, State.setHs, State.withResult, leavesGhost_of_quiescent h]

/-- ARM_AND_CLEAR_PENDING enters its hold and takes its first turn (R130). -/
theorem armAndClearPendingBody_undisturbed (hs : s.sched = []) :
    armAndClearPendingBody s = acpTurn (s.setBusy .acpHold) := by
  have hhold : (s.setBusy .acpHold).sched = [] := hs
  rw [armAndClearPendingBody, Block.bind_ok (event_apply _ s), Block.bind_ok (between_undisturbed hhold)]

section

variable {expected type len1 len2 valid : Half} (hs : s.sched = []) (hd : s.doneFlag = true)
  (ht : s.rxField typeOff = some type) (h1 : s.rxField len1Off = some len1)
  (h2 : s.rxField (len2Off s.params) = some len2) (hv : s.rxField (validOff s.params) = some valid)
include hs hd ht h1 h2 hv

/-- The turn of a wait that finds the awaited reply (R132, R134). -/
theorem waitTurn_matches {l : Nat} (h : awaited s.params expected type (resolveAny len1 valid len2) = some l) :
    waitTurn expected s = .ok () (matched type l s) := by
  rw [waitTurn_undisturbed expected hs hd ht h1 h2 hv, h]
  refine (hsMatch_undisturbed (s := s.chkClrDone) type l hs).trans (congrArg (EStateM.Result.ok ()) ?_)
  simp only [matched, State.chkClrDone, hd, State.emit, List.append_assoc]
  cases s.phase <;> rfl

/-- The turn of a wait that finds any other frame (R132, R133). -/
theorem waitTurn_discards (h : awaited s.params expected type (resolveAny len1 valid len2) = none) :
    waitTurn expected s = .ok () (discarded type (resolveAny len1 valid len2) s) := by
  rw [waitTurn_undisturbed expected hs hd ht h1 h2 hv, h]
  refine (hsDiscard_undisturbed (s := s.chkClrDone) type _ hs).trans (congrArg (EStateM.Result.ok ()) ?_)
  rw [discarded, ghost_after]
  simp [State.chkClrDone, hd, State.emit, State.armRx, State.setAnswered, State.leavesGhost]

end

theorem awaited_eq_some {p : Params} {type : Half} {l : Nat} (h : l ≤ p.payloadCap) :
    awaited p type type (.len l) = some l := by
  simp [awaited, overLength, Nat.not_lt.mpr h]

/-- A frame that is not the awaited reply: another type, no length, or a length over `N` (R132). -/
theorem awaited_eq_none {p : Params} {expected type : Half} {r : Resolution}
    (h : type ≠ expected ∨ r = .invalid ∨ ∃ l, r = .len l ∧ p.payloadCap < l) : awaited p expected type r = none := by
  cases r with
  | invalid => rfl
  | len l =>
    refine if_neg fun ⟨hfits, htype⟩ => ?_
    obtain hother | hinvalid | ⟨l', hlen, hlong⟩ := h
    · exact hother htype
    · cases hinvalid
    · cases hlen
      simp [overLength, hlong] at hfits

/-- An armed WAIT_RX_AND_CLEAR whose first turn, in the wait, runs to its end (R132). -/
theorem exec_of_waitTurn {expected : Half} {t : State} (hr : s.Ready) (hs : s.Undisturbed)
    (ha : s.armedSinceReset = true)
    (hturn : waitTurn expected { s with hsState := .wait, busyOp := .wait expected, result := none } = .ok () t) :
    exec (.waitRxAndClear expected) s = .next t := by
  refine (hostRequest_of_ready hr (waitRxAndClearBody expected)).trans (congrArg Host.Outcome.next (finish_ok ?_))
  exact (waitRxAndClearBody_undisturbed (s := s.withResult none) expected hs ha).trans hturn

/-! ## The block's turn in a hold, as a step (R29, log 6) -/

theorem step_acpHold {during : List (List EnvStep)} {rest : List Input} (ht : takes s (.resume during) rest)
    (hb : s.busyOp = .acpHold) : step s = .next (finish acpTurn { s with inputs := rest, sched := during }) := by
  obtain ⟨hok, hf, hcall, hin⟩ := ht
  exact (step_resume hcall hin).trans (resumeHeld_acpHold (u := { s with inputs := rest, sched := during }) hok hf hb)

/-- The turn of a wait that holds, where it runs to its end. -/
theorem step_of_waitTurn {expected : Half} {during : List (List EnvStep)} {rest : List Input} {t : State}
    (ht : takes s (.resume during) rest) (hb : s.busyOp = .wait expected)
    (hturn : waitTurn expected { s with inputs := rest, sched := during } = .ok () t) : step s = .next t := by
  obtain ⟨hok, hf, hcall, hin⟩ := ht
  refine (step_resume hcall hin).trans (Eq.trans ?_ (congrArg Host.Outcome.next (finish_ok hturn)))
  exact resumeHeld_wait (u := { s with inputs := rest, sched := during }) hok hf hb

/-! ## What can happen while a request holds (R12, R29, R152) -/

variable {t : State}

/-- The host's requests are refused while one holds (R12, R152). -/
theorem exec_held {i : Instr} (hi : i.isPrimitive = false) (hok : s.params.ok = true) (hf : s.fault = none)
    (hb : s.busyOp ≠ .none) : exec i s = .refused .hostStepDuringHold := by
  have refuses (body : Block Unit) : hostRequest body s = .refused .hostStepDuringHold := by
    rw [hostRequest, guarded_ready hok hf, if_pos hb]
  cases i with
  | beginReceive | poll | send | armAndClearPending | waitRxAndClear | dmaCancel | dispatchReturn => exact refuses _
  | armRx | armTx | getRemaining | chkClrDone | cancel => cases hi

/-- With no driver call laid out, a hold leaves the next step to the block's turn and to the environment: every step
of the host is refused (R12, log 8). -/
theorem step_held (hb : s.busyOp ≠ .none) (hcall : s.driverCall = none) (hstep : step s = .next t) :
    t = s ∨ (∃ rest during, resumeHeld { s with inputs := rest, sched := during } = .next t) ∨
      ∃ rest e, t = State.envStep { s with inputs := rest } e := by
  obtain ⟨hok, hf, hmove⟩ := step_next hstep
  cases hmove with
  | call hsome => simp [hcall] at hsome
  | stutter => exact .inl rfl
  | @request _ during rest i _ _ _ hdec hexec =>
    have hrefused := exec_held (s := { s with inputs := rest, sched := during }) (isPrimitive_of_decode_request hdec)
      hok hf hb
    cases hrefused.symm.trans hexec
  | illegal _ _ hnext =>
    obtain ⟨_, _, hidle, _⟩ := hostRequest_next hnext
    exact absurd hidle hb
  | resume _ _ hnext => exact .inr (.inl ⟨_, _, hnext⟩)
  | hostRead _ _ hnext | hostWrite _ _ hnext =>
    obtain ⟨_, _, hidle, _⟩ := hostAccess_next hnext
    exact absurd hidle hb
  | env => exact .inr (.inr ⟨_, _, rfl⟩)

/-! ## A wait that nothing can end (R132, R135, R139) -/

theorem envStep_timeout (hf : s.fault = none) (hallowed : s.params.hsTimeout = .nondet)
    (hwait : s.busyOp.isWait = true) : s.envStep .timeout = { s with
      trace := s.trace ++ [.hsTimeout]
      hsState := .idle
      busyOp := .none
      result := some .timeout } := by
  simp [State.envStep, hf, State.hsTimeout, hallowed, hwait]

theorem envStep_timeout_none (hnone : s.params.hsTimeout = .none) : s.envStep .timeout = s := by
  simp [State.envStep, State.hsTimeout, hnone]

/-- No byte lands, no completion or ghost is pending, and no TIMEOUT exists: the environment changes neither reception
nor the hold (R99 to R101, R135). -/
theorem envStep_unarmed (e : EnvStep) (hnone : s.params.hsTimeout = .none)
    (hrx : s.rxState = .idle ∨ s.rxState = .done) (hghost : s.rxGhost = false) :
    (s.envStep e).busyOp = s.busyOp ∧ (s.envStep e).rxState = s.rxState ∧ (s.envStep e).doneFlag = s.doneFlag ∧
      (s.envStep e).rxGhost = s.rxGhost := by
  have notIn : s.rxState.inTransfer ≠ true := by rw [(not_inTransfer_iff _).mpr hrx]; decide
  rcases envStep_cases s e with h | ⟨_, ⟨_, _, hactive, _⟩ | ⟨_, _, _, h⟩ | ⟨_, hpending, _⟩ | ⟨_, hsome, _⟩ |
    ⟨_, hsome, _⟩ | ⟨_, _, _, h⟩ | ⟨_, _, _, h⟩ | ⟨_, hallowed, _⟩⟩
  case inr.inl => exact absurd (hactive ▸ rfl) notIn
  case inr.inr.inr.inl => exact absurd (hpending ▸ rfl) notIn
  case inr.inr.inr.inr.inl | inr.inr.inr.inr.inr.inl => exact absurd (hsome.symm.trans hghost) (by decide)
  case inr.inr.inr.inr.inr.inr.inr.inr => exact absurd (hallowed.symm.trans hnone) (by decide)
  all_goals rw [h]; exact ⟨rfl, rfl, rfl, rfl⟩

/-! ## No ghost is ever made by the environment or by an arm from a quiescent state (R25, R101, R131) -/

theorem envKeeps_noGhost : EnvKeeps fun s => s.rxGhost = false where
  env s e hs := by
    rcases envStep_cases s e with h | ⟨_, ⟨_, _, _, h⟩ | ⟨_, _, _, h⟩ | ⟨_, _, h⟩ | ⟨_, _, h⟩ | ⟨_, _, h⟩ |
      ⟨_, _, _, h⟩ | ⟨_, _, _, h⟩ | ⟨_, _, _, h⟩⟩
    case inr.inr.inr.inr.inl | inr.inr.inr.inr.inr.inl => rw [h]
    all_goals rw [h]; exact hs
  sched _ _ hs := hs

theorem keeps_noGhost_acpTurn : Keeps (fun s => s.rxGhost = false) acpTurn :=
  keeps_acpTurn envKeeps_noGhost
    (fun s hs hquiet => by
      show (s.rxGhost || s.leavesGhost) = false
      rw [hs, leavesGhost_of_quiescent hquiet, Bool.or_self])
    (fun _ hs => hs) (fun _ hs => hs) fun _ _ hs => hs

end Sys2Proof.Machine

/-! ## What moves `hs_state`, under every interleaving (R129) -/

namespace Sys2Proof.Machine

variable {P : State → Prop} {S : HsState → Prop} {s t : State}

/-- What DISPATCH_RETURN keeps, given that its writes of STAGE and TXBUF, the arm of its transmission and the end of
the dispatch keep it (R119). -/
theorem keeps_dispatchReturnBody (h : EventsKeep P) (hw : ∀ s b off v, P s → P (s.writeByte b off v))
    (ha : ∀ s, P s → P s.armTx) (hp : ∀ s, P s → P (s.setPhase .idle)) (reply : Bool) (lr : Half) :
    Keeps P (dispatchReturnBody reply lr) := by
  have gap : Keeps P between := keeps_between h.env
  have stop (r : FaultRecord) : Keeps P (raiseFault r : Block Unit) := keeps_raise fun s => h.raise s r
  have field (off : Nat) (v : Half) : Keeps P (wr16 .stage off v) :=
    keeps_wr16 h.env (fun s _ => hw s _ _ _) fun s _ => hw s _ _ _
  have fields (type : Half) : Keeps P (writeReplyFields type lr) :=
    keeps_bind (keeps_look _ _) fun _ => keeps_bind (field _ _) fun _ => keeps_bind gap fun _ =>
      keeps_bind (field _ _) fun _ => keeps_bind gap fun _ => keeps_bind (field _ _) fun _ =>
        keeps_bind gap fun _ => field _ _
  have idle : Keeps P (do event fun s => s.setPhase .idle; complete .completed) :=
    keeps_bind (keeps_event hp) fun _ => h.complete _
  have ends (type : Half) : Keeps P (returnEnd type reply lr) :=
    keeps_ite (keeps_bind (fields type) fun _ => keeps_bind gap fun _ =>
      keeps_bind (keeps_sendFrame h.env (fun s _ _ hs _ => hw s _ _ _ hs) ha) fun _ => keeps_bind gap fun _ => idle)
      idle
  refine keeps_bind (keeps_look _ _) fun seen => keeps_ite (stop _) ?_
  cases seen.phase with
  | idle => exact stop _
  | dispatching type _ _ rearm =>
    refine keeps_ite (stop _) (keeps_ite (stop _) ?_)
    exact keeps_bind (keeps_event fun s => h.emit s _) fun _ => keeps_bind gap fun _ =>
      keeps_ite (keeps_bind h.rearm fun _ => keeps_bind gap fun _ => ends type) (ends type)

/-- `hs_state` is among `S`, where a wait that TIMEOUT may end leaves it too (R129, R135). -/
def State.HsIn (S : HsState → Prop) (s : State) : Prop := S s.hsState ∧ (s.busyOp.isWait = true → S .idle)

theorem State.HsIn.same (h : s.HsIn S) (hhs : t.hsState = s.hsState) (hb : t.busyOp = s.busyOp) : t.HsIn S :=
  ⟨hhs ▸ h.1, hb ▸ h.2⟩

/-- Among the environment's steps only TIMEOUT moves `hs_state`, to HS_IDLE and in a wait only (R135). -/
theorem State.HsIn.envStep (h : s.HsIn S) (e : EnvStep) : (s.envStep e).HsIn S := by
  rcases envStep_cases s e with h' | ⟨_, ⟨_, _, _, h'⟩ | ⟨_, _, _, h'⟩ | ⟨_, _, h'⟩ | ⟨_, _, h'⟩ | ⟨_, _, h'⟩ |
    ⟨_, _, _, h'⟩ | ⟨_, _, _, h'⟩ | ⟨_, _, hwait, h'⟩⟩ <;> rw [h']
  case inr.inr.inr.inr.inr.inr.inr.inr => exact ⟨h.2 hwait, fun hw => by cases hw⟩
  all_goals exact h.same rfl rfl

/-- None of the events common to the requests moves `hs_state`. -/
theorem eventsKeep_hsIn (S : HsState → Prop) : EventsKeep (State.HsIn S) where
  env := ⟨fun _ e h => h.envStep e, fun _ _ h => h.same rfl rfl⟩
  raise _ _ h := h.same rfl rfl
  result _ _ h := h.same rfl rfl
  emit _ _ h := h.same rfl rfl
  answered _ _ h := h.same rfl rfl
  arm _ h := h.same rfl rfl
  took _ h := h.same rfl rfl
  chk _ h := h.same rfl rfl

theorem State.HsIn.writeByte (h : s.HsIn S) (b : Buffer) (off : Nat) (v : Byte) : (s.writeByte b off v).HsIn S := by
  cases b <;> exact h.same rfl rfl

theorem State.HsIn.setHs {hs : HsState} (h : s.HsIn S) (hmember : S hs) : (s.setHs hs).HsIn S := ⟨hmember, h.2⟩

theorem State.HsIn.setBusy {b : BusyOp} (h : s.HsIn S) (hidle : b.isWait = true → S .idle) : (s.setBusy b).HsIn S :=
  ⟨h.1, hidle⟩

/-- SEND moves HS_ARMED to HS_REQ_SENT, and only that (R125, R129). -/
theorem keeps_hsIn_sendBody (hsent : S .armed → S .reqSent) : Keeps (State.HsIn S) sendBody := by
  have h := eventsKeep_hsIn S
  have gap : Keeps (State.HsIn S) between := keeps_between h.env
  have stop (r : FaultRecord) : Keeps (State.HsIn S) (raiseFault r : Block Unit) := keeps_raise fun s => h.raise s r
  have accepted : Keeps (State.HsIn S) sendAccepted := by
    refine keeps_bind (keeps_sendFrame h.env (fun s _ _ hs _ => hs.writeByte _ _ _) fun _ hs => hs.same rfl rfl)
      fun _ => keeps_look_bind fun s hs => ?_
    have hmoves : s.hsState = .armed → S .reqSent := fun harmed => hsent (harmed ▸ hs.1)
    exact keeps_ite_of (fun harmed => keeps_bind gap fun _ =>
      keeps_bind (keeps_event fun _ ht => ht.setHs (hmoves harmed)) fun _ => h.complete _)
      (fun _ => h.complete _) s hs
  exact keeps_bind (keeps_look _ _) fun _ => keeps_ite (stop _)
    (keeps_bind (h.rd16 _ _) fun _ => keeps_bind gap fun _ => keeps_bind (h.rd16 _ _) fun _ => keeps_bind gap fun _ =>
      keeps_bind (h.rd16 _ _) fun _ => keeps_bind gap fun _ => keeps_ite accepted (stop _))

/-- ARM_AND_CLEAR_PENDING gives HS_ARMED, once it has armed reception (R129, R130). -/
theorem keeps_hsIn_armAndClearPendingBody (harmed : S .armed) : Keeps (State.HsIn S) armAndClearPendingBody :=
  have h := eventsKeep_hsIn S
  keeps_bind (keeps_event fun _ hs => hs.setBusy fun hw => by cases hw) fun _ =>
    keeps_bind (keeps_between h.env) fun _ =>
      keeps_acpTurn h.env (fun _ hs _ => hs.same rfl rfl) (fun _ hs => hs.setBusy fun hw => by cases hw)
        (fun _ hs => hs.setHs harmed) h.result

/-- WAIT_RX_AND_CLEAR gives HS_WAIT, and HS_IDLE where its wait ends (R129, R132, R134, R135). -/
theorem keeps_hsIn_waitRxAndClearBody (hwait : S .wait) (hidle : S .idle) (expected : Half) :
    Keeps (State.HsIn S) (waitRxAndClearBody expected) :=
  have h := eventsKeep_hsIn S
  have gap : Keeps (State.HsIn S) between := keeps_between h.env
  keeps_bind (keeps_look _ _) fun _ => keeps_ite (keeps_raise fun s => h.raise s _)
    (keeps_bind (keeps_event fun _ hs => hs.setHs hwait) fun _ => keeps_bind gap fun _ =>
      keeps_bind (keeps_event fun _ hs => hs.setBusy fun _ => hidle) fun _ => keeps_bind gap fun _ =>
        keeps_waitTurn h (fun _ hs => hs.same rfl rfl) (fun _ hs => hs.setBusy fun hw => by cases hw)
          (fun _ hs => hs.setHs hidle) expected)

/-- Whatever set `hs_state` starts in, an instruction keeps it there if its own moves stay in the set (R129). -/
theorem hsState_of_exec {i : Instr} (hsend : i = .send → S .armed → S .reqSent)
    (hacp : i = .armAndClearPending → S .armed) (hwait : (∃ e, i = .waitRxAndClear e) → S .wait ∧ S .idle)
    (hs : S s.hsState) (hnext : exec i s = .next t) : S t.hsState := by
  have h := eventsKeep_hsIn S
  have request {body : Block Unit} (hbody : Keeps (State.HsIn S) body) (hnext : hostRequest body s = .next t) :
      S t.hsState := by
    obtain ⟨_, _, hb, rfl⟩ := hostRequest_next hnext
    have hstart : (s.withResult none).HsIn S := ⟨hs, fun hw => by simp [hb, BusyOp.isWait] at hw⟩
    exact (finish_keeps hbody _ hstart).1
  cases i with
  | beginReceive => exact request (keeps_beginReceiveBody h) hnext
  | poll rmode => exact request (keeps_pollBody h (fun _ _ _ _ _ hs _ => hs.same rfl rfl) rmode) hnext
  | send => exact request (keeps_hsIn_sendBody (hsend rfl)) hnext
  | armAndClearPending => exact request (keeps_hsIn_armAndClearPendingBody (hacp rfl)) hnext
  | waitRxAndClear expected =>
    obtain ⟨hwait, hidle⟩ := hwait ⟨expected, rfl⟩
    exact request (keeps_hsIn_waitRxAndClearBody hwait hidle expected) hnext
  | dmaCancel =>
    have hbody : Keeps (State.HsIn S) (do event State.cancelRx; complete .completed) :=
      keeps_bind (keeps_event fun _ hs => hs.same rfl rfl) fun _ => h.complete _
    exact request hbody hnext
  | dispatchReturn reply lr =>
    exact request (keeps_dispatchReturnBody h (fun _ _ _ _ hs => hs.writeByte _ _ _) (fun _ hs => hs.same rfl rfl)
      (fun _ hs => hs.same rfl rfl) reply lr) hnext
  | armRx | armTx | getRemaining | chkClrDone | cancel =>
    obtain ⟨_, _, ht⟩ := guarded_next hnext
    cases ht
    exact hs

end Sys2Proof.Machine

/-! ## The obligations of 44_handshake.md -/

namespace Sys2Proof.Proofs.Handshake

open Sys2Proof Sys2Proof.Machine Sys2Proof.Claims

/-- Settles O41: the hold is entered and left in the one turn, which finds the channels quiescent. -/
theorem armAndClearPendingCompletes : Obligations.ArmAndClearPendingCompletes := by
  intro s hr hs hquiet
  obtain ⟨_, _, hb⟩ := id hr
  refine (hostRequest_of_ready hr armAndClearPendingBody).trans (congrArg Host.Outcome.next ?_)
  rw [finish_ok ((armAndClearPendingBody_undisturbed (s := s.withResult none) hs).trans
    (acpTurn_completes (s := (s.withResult none).setBusy .acpHold) hs hquiet)), hb]
  rfl

/-- Settles O42: a turn before `quiescent()` has no event, and a turn after it is the completing one. -/
theorem armAndClearPendingHolds : Obligations.ArmAndClearPendingHolds := by
  refine ⟨fun s hr hs hpart => ?issued, fun s rest ht hb => ⟨fun hpart => ?waits, fun hquiet => ?completes⟩⟩
  case issued =>
    refine (hostRequest_of_ready hr armAndClearPendingBody).trans (congrArg Host.Outcome.next (finish_ok ?_))
    exact (armAndClearPendingBody_undisturbed (s := s.withResult none) hs).trans (acpTurn_waits hpart)
  case waits =>
    have hturn := acpTurn_waits (s := { s with inputs := rest, sched := [] }) hpart
    exact (step_acpHold ht hb).trans (congrArg Host.Outcome.next (finish_ok hturn))
  case completes =>
    have hturn := acpTurn_completes (s := { s with inputs := rest, sched := [] }) rfl hquiet
    exact (step_acpHold ht hb).trans (congrArg Host.Outcome.next (finish_ok hturn))

/-- Settles O43: the environment makes no ghost, and the request arms from a quiescent state only. -/
theorem armAndClearPendingLeavesNoGhost : Obligations.ArmAndClearPendingLeavesNoGhost := by
  refine ⟨fun s t hs hnext => ?issued, fun s t during rest ht hb hs hstep => ?resumed⟩
  case issued =>
    obtain ⟨_, _, _, rfl⟩ := hostRequest_next hnext
    have hbody : Keeps (fun s => s.rxGhost = false) armAndClearPendingBody :=
      keeps_bind (keeps_event fun _ hs => hs) fun _ => keeps_bind (keeps_between envKeeps_noGhost) fun _ =>
        keeps_noGhost_acpTurn
    exact finish_keeps hbody _ hs
  case resumed =>
    cases (step_acpHold ht hb).symm.trans hstep
    exact finish_keeps keeps_noGhost_acpTurn _ hs

/-- Settles O44: the turn of a wait, first or later, that finds the awaited reply. -/
theorem waitReturnsTheAwaitedFrame : Obligations.WaitReturnsTheAwaitedFrame := by
  intro s expected len1 len2 valid l hd htype h1 h2 hv hres hfits
  have hawaited : awaited s.params expected expected (resolveAny len1 valid len2) = some l :=
    hres ▸ awaited_eq_some hfits
  refine ⟨fun hr hs ha => ?issued, fun rest ht hb => ?resumed⟩
  case issued =>
    exact exec_of_waitTurn hr hs ha (waitTurn_matches
      (s := { s with hsState := .wait, busyOp := .wait expected, result := none }) hs hd htype h1 h2 hv hawaited)
  case resumed =>
    exact step_of_waitTurn ht hb (waitTurn_matches
      (s := { s with inputs := rest, sched := [] }) rfl hd htype h1 h2 hv hawaited)

/-- Settles O45: the turn of a wait, first or later, that finds a frame it does not await. -/
theorem waitDiscardsAnyOtherFrame : Obligations.WaitDiscardsAnyOtherFrame := by
  intro s expected type len1 len2 valid hd htype h1 h2 hv hother
  have hawaited := awaited_eq_none hother
  refine ⟨fun hr hs ha => ?issued, fun rest ht hb => ?resumed⟩
  case issued =>
    exact exec_of_waitTurn hr hs ha (waitTurn_discards
      (s := { s with hsState := .wait, busyOp := .wait expected, result := none }) hs hd htype h1 h2 hv hawaited)
  case resumed =>
    exact step_of_waitTurn ht hb (waitTurn_discards
      (s := { s with inputs := rest, sched := [] }) rfl hd htype h1 h2 hv hawaited)

/-- Settles O46: a turn with no completion raised has no event. -/
theorem waitHoldsUntilACompletion : Obligations.WaitHoldsUntilACompletion :=
  ⟨fun _ expected hr hs ha hd => exec_of_waitTurn hr hs ha (waitTurn_waits expected hd),
    fun _ expected _ _ ht hb hd => step_of_waitTurn ht hb (waitTurn_waits expected hd)⟩

/-- Settles O47: a hold leaves the step to the wait's turn and to the environment, and neither dispatches. -/
theorem noDispatchWhileWaiting : Obligations.NoDispatchWhileWaiting := by
  intro s e hb hcall
  have hheld : s.busyOp ≠ .none := by simp [hb]
  refine ⟨fun t hstep => ?_, fun i hok hf hi => exec_held hi hok hf hheld⟩
  have hkept : s.KeepsMark t := by
    obtain rfl | ⟨rest, during, hnext⟩ | ⟨rest, e, rfl⟩ := step_held hheld hcall hstep
    · exact .refl t
    · exact State.KeepsMark.of_resumeHeld (s := { s with inputs := rest, sched := during }) hnext
    · exact (State.KeepsMark.env s).env { s with inputs := rest } e ((State.KeepsMark.refl s).same rfl rfl)
  obtain ⟨new, htrace, hquiet, _⟩ := hkept
  exact ⟨new, htrace, hquiet⟩

/-- Settles O48: the wait's turn has no event without a completion, and the environment can raise none. -/
theorem unarmedWaitNeverEnds : Obligations.UnarmedWaitNeverEnds := by
  intro s t e hnone hb hrx hd hghost hcall hstep
  have hheld : s.busyOp ≠ .none := by simp [hb]
  obtain rfl | ⟨rest, during, hnext⟩ | ⟨rest, x, rfl⟩ := step_held hheld hcall hstep
  · exact ⟨rfl, hb, rfl, hd, hghost, hcall⟩
  · obtain ⟨hok, hf, _⟩ := guarded_next hnext
    have hturn := waitTurn_waits (s := { s with inputs := rest, sched := during }) e hd
    have hstays := (resumeHeld_wait hok hf hb).trans (congrArg Host.Outcome.next (finish_ok hturn))
    cases hstays.symm.trans hnext
    exact ⟨rfl, hb, rfl, hd, hghost, hcall⟩
  · obtain ⟨hbusy, hstate, hflag, hno⟩ := envStep_unarmed (s := { s with inputs := rest }) x hnone hrx hghost
    exact ⟨envStep_params _ x, hbusy.trans hb, hstate, hflag.trans hd, hno.trans hghost,
      (envStep_driverCall _ x).trans hcall⟩

/-- Settles O49: the table's moves of an instruction, as the set `hs_state` stays in. -/
theorem handshakeStateMovesAsTheTable : Obligations.HandshakeStateMovesAsTheTable := by
  intro i s t hnext
  refine hsState_of_exec (S := fun hs => hs = s.hsState ∨ (i = .armAndClearPending ∧ hs = .armed) ∨
    (i = .send ∧ s.hsState = .armed ∧ hs = .reqSent) ∨
    ((∃ e, i = .waitRxAndClear e) ∧ (hs = .wait ∨ hs = .idle)))
    (fun hsend harmed => ?send) (fun hacp => .inr (.inl ⟨hacp, rfl⟩))
    (fun hwait => ⟨.inr (.inr (.inr ⟨hwait, .inl rfl⟩)), .inr (.inr (.inr ⟨hwait, .inr rfl⟩))⟩) (.inl rfl) hnext
  case send =>
    subst hsend
    have hold : HsState.armed = s.hsState := by simpa using harmed
    exact .inr (.inr (.inl ⟨rfl, hold.symm, rfl⟩))

/-- Settles O18: TIMEOUT by whether the parameters have it. -/
theorem timeoutEndsAWaitOnlyWhenAllowed : Obligations.TimeoutEndsAWaitOnlyWhenAllowed := by
  intro s e rest ht hb
  have hwait : s.busyOp.isWait = true := by rw [hb]; rfl
  exact ⟨fun hallowed => DmaLink.step_of_takes_env ht fun hf => envStep_timeout hf hallowed hwait,
    fun hnone => DmaLink.step_of_takes_env ht fun _ => envStep_timeout_none hnone⟩

/-- Settles O50: the request is CANCEL's one event, with R25's rule for the ghost. -/
theorem dmaCancelStopsReception : Obligations.DmaCancelStopsReception := by
  intro s hr
  rw [ghost_after]
  exact hostRequest_of_ready hr _

end Sys2Proof.Proofs.Handshake

/-! ## What a request raises before any effect (R144, R145, R149 to R151) -/

namespace Sys2Proof.Machine

variable {s : State} {lr : Half}

/-- A request that does nothing but raise leaves the record, and hands nothing back (R141, log 13). -/
theorem hostRequest_raises {body : Block Unit} {r : FaultRecord} (hr : s.Ready)
    (h : body (s.withResult none) = raiseFault r (s.withResult none)) :
    hostRequest body s = .next { s with fault := some r, result := none } :=
  (hostRequest_of_ready hr body).trans (congrArg Host.Outcome.next (finish_error h))

theorem pollBody_of_dispatching (rmode : RMode) (h : s.phase ≠ .idle) :
    pollBody rmode s = raiseFault (.sequenceError .poll s.phase) s := by
  rw [pollBody, Block.bind_ok (look_apply _ s), Block.bind_ok (look_apply _ s), if_pos h]

theorem pollBody_of_unarmed (rmode : RMode) (hidle : s.phase = .idle) (h : s.armedSinceReset = false) :
    pollBody rmode s = raiseFault (.notArmedSinceReset .poll) s := by
  rw [pollBody, Block.bind_ok (look_apply _ s), Block.bind_ok (look_apply _ s), if_neg (not_not_intro hidle), if_pos h]

theorem waitRxAndClearBody_of_unarmed (expected : Half) (h : s.armedSinceReset = false) :
    waitRxAndClearBody expected s = raiseFault (.notArmedSinceReset .waitRxAndClear) s := by
  rw [waitRxAndClearBody, Block.bind_ok (look_apply _ s), if_pos h]

/-- The sequence check comes before the checks of a reply (R144, R151). -/
theorem dispatchReturnBody_of_idle {reply : Bool} (hwf : (Instr.dispatchReturn reply lr).wf = true)
    (hidle : s.phase = .idle) :
    dispatchReturnBody reply lr s = raiseFault (.sequenceError .dispatchReturn .idle) s := by
  have hlegal : ¬ (reply = false ∧ lr ≠ 0) := fun ⟨hplain, hlen⟩ =>
    hlen (by simpa [Instr.wf, hplain] using hwf)
  rw [dispatchReturnBody, Block.bind_ok (look_apply _ s), if_neg hlegal, id, hidle]

/-- R149 and R150 for a reply: TX_BUSY is tested first, then the reply's length (R119, R151). -/
theorem dispatchReturnBody_of_reply {type : Half} {len : Nat} {rmode : RMode} {rearm : Bool}
    (hp : s.phase = .dispatching type len rmode rearm) :
    dispatchReturnBody true lr s =
      if s.txBusy = true then raiseFault (.txBusy s.txSent) s
      else if s.params.payloadCap < lr.toNat then raiseFault (.badTxFrame lr lr Config.replyValid) s
      else returnRun type rearm true lr s := by
  rw [dispatchReturnBody, Block.bind_ok (look_apply _ s), if_neg (fun h => Bool.false_ne_true h.1.symm), id, hp]
  simp only [true_and, Block.ite_apply]

theorem sendBody_of_txBusy (h : s.txBusy = true) : sendBody s = raiseFault (.txBusy s.txSent) s := by
  rw [sendBody, Block.bind_ok (look_apply id s), id, if_pos h]

end Sys2Proof.Machine

/-! ## The two stops every gate has: parameters outside R7, and a recorded fault (R141, R152) -/

namespace Sys2Proof.Machine

variable {s : State} {o : Host.Outcome State Fault Refusal}

/-- R7's bounds are what the model tests. -/
theorem Params.ok_iff_withinR7 (p : Params) : p.ok = true ↔ Claims.withinR7 p := by
  simp [Params.ok, Claims.withinR7, and_assoc]

/-- Whatever would come next, `s` answers `o` (log 19). -/
def State.AnswersOnly (s : State) (o : Host.Outcome State Fault Refusal) : Prop := ∀ next, guarded s next = o

theorem answersOnly_halted {r : FaultRecord} (hok : s.params.ok = true) (hf : s.fault = some r) :
    s.AnswersOnly (.fault (.halted r)) := fun next => by simp [guarded, hok, hf]

theorem answersOnly_outOfBounds (hok : s.params.ok = false) : s.AnswersOnly (.refused .parametersOutOfBounds) :=
  fun _ => if_pos hok

/-- Only the parameters and the recorded fault decide it. -/
theorem State.AnswersOnly.congr {t : State} (h : s.AnswersOnly o) (hp : t.params = s.params)
    (hf : t.fault = s.fault) : t.AnswersOnly o := fun next => by
  rw [← h next, guarded, guarded, hp, hf]

/-- Every instruction passes the gate before anything else. -/
theorem State.AnswersOnly.exec (h : s.AnswersOnly o) (i : Instr) : exec i s = o := by
  cases i <;> exact h _

/-- Every step passes the gate, whichever agent State selects. -/
theorem State.AnswersOnly.step (h : s.AnswersOnly o) : step s = o := by
  cases hcall : s.driverCall with
  | some code =>
    have called : State.AnswersOnly { s with driverCall := none } o := h.congr rfl rfl
    rw [step_call hcall]
    cases decode (.primitive code) with
    | ok i => exact called.exec i
    | error _ => exact called _
  | none =>
    cases hin : s.inputs with
    | nil => exact (step_stutter hcall hin).trans (h _)
    | cons input rest =>
      have taken : State.AnswersOnly { s with inputs := rest } o := h.congr rfl rfl
      have issued (during : List (List EnvStep)) : State.AnswersOnly { s with inputs := rest, sched := during } o :=
        h.congr rfl rfl
      cases input with
      | request word during =>
        rw [step_request hcall hin]
        cases decode (.request word) with
        | ok i => exact (issued during).exec i
        | error _ => exact issued during _
      | resume during => exact (step_resume hcall hin).trans (issued during _)
      | hostRead space off => exact (step_hostRead hcall hin).trans (taken _)
      | hostWrite space off b => exact (step_hostWrite hcall hin).trans (taken _)
      | env e => exact (step_env hcall hin).trans (taken _)

end Sys2Proof.Machine

/-! ## What every instruction answers from a ready state (R12, R156) -/

namespace Sys2Proof.Machine

variable {s t : State}

/-- The gates are all that can refuse or halt an instruction: a request's events, and a driver call's one event, always
leave a next state. -/
theorem State.Ready.exec_answers (hr : s.Ready) (i : Instr) : ∃ t, exec i s = .next t := by
  have ⟨hok, hf, _⟩ := hr
  cases i with
  | beginReceive | poll | send | armAndClearPending | waitRxAndClear | dmaCancel | dispatchReturn =>
    exact ⟨_, hostRequest_of_ready hr _⟩
  | armRx | armTx | getRemaining | chkClrDone | cancel => exact ⟨_, guarded_ready hok hf⟩

/-- An instruction leaves the parameters and adds to the trace at its end, under every interleaving (R6, R33). -/
theorem State.Continues.exec {i : Instr} (hnext : exec i s = .next t) : s.Continues t := by
  cases hi : i.isPrimitive with
  | true => exact (State.Continues.refl s).primitive hi hnext
  | false =>
    obtain ⟨hok, _⟩ := exec_next_ready hnext
    exact (requestsKeep_continues hok).of_exec hi (.refl s) hnext

end Sys2Proof.Machine

/-! ## The obligations of 60_exceptions.md -/

namespace Sys2Proof.Proofs.Exceptions

open Sys2Proof Sys2Proof.Machine Sys2Proof.Claims

/-- Settles O35: the two tests of a reply, SEND's first test, and SEND's test of the three fields it reads. -/
theorem transmitFaultsComeBeforeAnyEffect : Obligations.TransmitFaultsComeBeforeAnyEffect := by
  intro s hr
  refine ⟨fun lr type len rmode rearm hp => ?reply, fun hbusy => hostRequest_raises hr (sendBody_of_txBusy hbusy),
    fun hs hidle hbad => ?send⟩
  case reply =>
    have hbody := dispatchReturnBody_of_reply (s := s.withResult none) (lr := lr) hp
    exact ⟨fun hbusy => hostRequest_raises hr (hbody.trans (if_pos hbusy)), fun hidle hlong =>
      hostRequest_raises hr (hbody.trans ((if_neg (ne_true_of_eq_false hidle)).trans (if_pos hlong)))⟩
  case send =>
    have hbody := sendBody_undisturbed (s := s.withResult none) hs hidle
    exact hostRequest_raises hr (hbody.trans (if_neg (ne_true_of_eq_false hbad)))

/-- Settles O53: past the gates every instruction leaves a next state, and no event writes a parameter. -/
theorem everyRequestAnswersWhenReady : Obligations.EveryRequestAnswersWhenReady := by
  intro i s hr
  obtain ⟨t, hnext⟩ := hr.exec_answers i
  obtain ⟨hparams, _⟩ := State.Continues.exec hnext
  exact ⟨t, hnext, hparams⟩

/-- Settles O23: each request's first tests, the sequence check before the check for an arm. -/
theorem outOfSequenceRequestsFault : Obligations.OutOfSequenceRequestsFault := fun _ hr =>
  ⟨fun rmode hp => hostRequest_raises hr (pollBody_of_dispatching rmode hp),
    fun _ _ hwf hidle => hostRequest_raises hr (dispatchReturnBody_of_idle hwf hidle),
    fun harmed => ⟨fun rmode hidle => hostRequest_raises hr (pollBody_of_unarmed rmode hidle harmed),
      fun expected => hostRequest_raises hr (waitRxAndClearBody_of_unarmed expected harmed)⟩⟩

/-- Settles O54: every instruction and every step passes the gate, which stops at the parameters and then at the
record. -/
theorem faultStopsEveryAgent : Obligations.FaultStopsEveryAgent := by
  refine ⟨fun s r hf => ⟨fun es => runEnv_faulted es (by simp [hf]), fun hin => ?faulted⟩, fun s hout => ?outside⟩
  case faulted =>
    have halted := answersOnly_halted ((Params.ok_iff_withinR7 _).mpr hin) hf
    exact ⟨halted.exec, halted.step⟩
  case outside =>
    have hok : s.params.ok = false := by simpa [← Params.ok_iff_withinR7] using hout
    have refused := answersOnly_outOfBounds hok
    exact ⟨refused.exec, refused.step⟩

end Sys2Proof.Proofs.Exceptions

/-! ## What reset leaves (R159) -/

namespace Sys2Proof.Machine

variable (p : Params)

/-! ### The three spaces (R19 to R21) -/

/-- No byte of RXBUF has been written, so each read of it faults (R19, R44). -/
theorem resetWith_readByte_rxbuf (off : Nat) : (State.resetWith p).readByte .rxbuf off = none := by
  rw [readByte_rxbuf]
  exact Memory.read_nil off

/-- TXBUF holds its draw (R20, log 2). -/
theorem resetWith_readByte_txbuf (off : Nat) :
    (State.resetWith p).readByte .txbuf off = some (Config.txbufDraw off) := by
  have unwritten : (State.resetWith p).txbuf.read off = none := Memory.read_nil off
  rw [readByte_txbuf, State.txByteAt, unwritten, Option.getD_none]

/-- STAGE holds its draw (R21, log 2). -/
theorem resetWith_readByte_stage (off : Nat) :
    (State.resetWith p).readByte .stage off = some (Config.stageDraw off) := by
  have unwritten : (State.resetWith p).stage.read off = none := Memory.read_nil off
  rw [readByte_stage, State.stageByte, unwritten, Option.getD_none]

/-! ### The three views (R35 to R37) -/

/-- Every flag is FALSE and every code 0, so each bit of TRSTATUS is (R35). -/
theorem resetWith_trstatus : (State.resetWith p).trstatus = 0 := by
  refine BitVec.eq_of_getLsbD_eq fun i hi => ?_
  rw [Proofs.MachineState.trstatus_getLsbD _ hi]
  interval_cases i <;> rfl

theorem resetWith_trfault : (State.resetWith p).trfault = 0 := rfl

theorem resetWith_rxLandedView : (State.resetWith p).rxLandedView = 0 := rfl

/-! ### The invariant -/

variable {p}

/-- The spaces are empty, nothing is received, leaving, held or in dispatch, and nothing is armed. -/
theorem State.Inv.resetWith (hok : p.ok = true) : (State.resetWith p).Inv where
  paramsOk := hok
  rxWf := Memory.wf_nil
  rxWithin := Memory.within_nil _
  txWf := Memory.wf_nil
  txWithin := Memory.within_nil _
  stageWf := Memory.wf_nil
  stageWithin := Memory.within_nil _
  landedLe := Nat.zero_le _
  landedActive := nofun
  landedDone := nofun
  landedWritten _ hlt := absurd hlt (Nat.not_lt_zero _)
  ghostAllowed := nofun
  txLeaving := nofun
  txAtRest _ := rfl
  framesWhole := nofun
  unarmed _ := ⟨rfl, rfl, rfl, rfl, rfl⟩
  waitArmed := nofun
  dispatchFits := nofun
  noCall := rfl

end Sys2Proof.Machine

/-! ## The obligations of 70_reset_and_hazards.md -/

namespace Sys2Proof.Proofs.Reset

open Sys2Proof Sys2Proof.Machine

/-- Settles O58: the reads of the three spaces, the table's fields by the definition of reset, and the three views. -/
theorem resetLeavesTheTable : Obligations.ResetLeavesTheTable := by
  intro p
  exact ⟨resetWith_readByte_rxbuf p, resetWith_readByte_txbuf p, resetWith_readByte_stage p,
    rfl, rfl, rfl, rfl, rfl, rfl, rfl, rfl, rfl, rfl, rfl, rfl, rfl, rfl, rfl,
    resetWith_trstatus p, resetWith_trfault p, resetWith_rxLandedView p⟩

/-- Settles O59, clause by clause of the invariant. -/
theorem resetMeetsTheInvariant : Obligations.ResetMeetsTheInvariant :=
  fun _ hok => .resetWith hok

end Sys2Proof.Proofs.Reset
